-- ==== Sys2Proof/Word.lean ====
section
/-! DEFINITION. The word types of the LC24: bytes of the two links, card ids, and the indices of the
24 machine positions and the 4 pay terminals. -/

namespace Sys2Proof

/-- A byte of either link (chapter 12: bit 0 is the least significant bit). -/
abbrev Byte := BitVec 8

/-- A card id, 64 bits (R59). -/
abbrev CardId := BitVec 64

/-- An option set: bit 0 PREWASH, bit 1 EXTRA_RINSE, bit 2 HOT, bit 3 HEAVY (R194). -/
abbrev OptionSet := BitVec 4

/-- An item tag, 0 to 15, wrapping from 15 to 0 (R17). -/
abbrev ItemTag := BitVec 4

/-- A machine position; index `p` is the position of room-bus address `p + 1` (R23). -/
abbrev PosIx := Fin 24

/-- A pay terminal; index `t` is the terminal of room-bus address `t + 25` (R45). -/
abbrev TermIx := Fin 4

/-- One character time of the room bus: the levels of its 11 positions, bit 0 the first in time (the start
position); 1 is mark, 0 is space (R1). -/
abbrev BusTime := BitVec 11

/-- One character time of the gateway line: the levels of its 10 positions, bit 0 the first in time; 1 is mark,
0 is space (R167). -/
abbrev LineTime := BitVec 10

/-- One character of the room bus: its data byte, its mark bit, and whether its stop position was at space
(R1, a framing error). -/
structure BusChar where
  data : Byte
  mark : Bool
  framing : Bool
  deriving DecidableEq, Repr

/-- One byte of the gateway line, and whether it had a framing error (R167, R168). -/
structure LineByte where
  data : Byte
  framing : Bool
  deriving DecidableEq, Repr

end Sys2Proof
end

