-- ==== Sys2Proof/Config.lean ====
section
/-! DEFINITION. What is fixed for the part: the capacities of its tables and queues, the ranges its rules
name, and the one free value of the model. -/

namespace Sys2Proof.Config

/-- The card table holds up to 512 records (R59). -/
def cardCapacity : Nat := 512
/-- The price table holds up to 32 entries (R82). -/
def priceCapacity : Nat := 32
/-- The band table holds up to 8 bands (R85). -/
def bandCapacity : Nat := 8
/-- An order queue holds up to 4 orders (chapter 2, section 2-6). -/
def orderCapacity : Nat := 4
/-- An outbox holds up to 4 items (R45). -/
def outboxCapacity : Nat := 4
/-- The fault queue holds up to 32 records (R155). -/
def faultCapacity : Nat := 32
/-- Open sessions and settlement records number at most 64 together (R163). -/
def settlementCapacity : Nat := 64
/-- SETTLEMENT_HIGH is present from 48 records on (R166). -/
def settlementHighMark : Nat := 48
/-- The request buffer holds up to 2 frames (R170). -/
def bufferCapacity : Nat := 2
/-- The transmit queue holds up to 4 reply frames (R173). -/
def transmitCapacity : Nat := 4
/-- A balance is at most 500,000 cu, and so is one credit or debit (R59, R72, R73). -/
def maxBalance : Nat := 500000
/-- A discount is at most 90 percent (R59). -/
def maxDiscount : Nat := 90
/-- A daily limit is 1 to 50,000 cu (R59). -/
def maxDailyLimit : Nat := 50000
/-- Spent today stops at 999,999 cu (R64). -/
def maxSpent : Nat := 999999
/-- A budget is at most 250 LU (R122). -/
def maxBudget : Nat := 250
/-- The week has 10,080 minutes (R78). -/
def weekMinutes : Nat := 10080
/-- A day has 1,440 minutes (R78). -/
def dayMinutes : Nat := 1440
/-- A settlement number is 1 to 65,534 (R161). -/
def maxSettlementNumber : Nat := 65534
/-- A fault record number is 1 to 65,535 (R156). -/
def maxFaultNumber : Nat := 65535
/-- READ FAULTS and READ SETTLEMENTS carry up to 8 records (R158, R164). -/
def readCount : Nat := 8
/-- A TEXT carries up to 32 characters (section 3-3). -/
def maxText : Nat := 32
/-- A heated minute has at least 30 heat seconds (R107). -/
def heatedSeconds : Nat := 30

/-- FREE VALUE (log entry 10). R134 withdraws every GRANTED grant at a SAG assertion and does not state
the order in which it does. At the `n`-th assertion the positions are taken in rising rank, and nothing
is known of the ranks. -/
opaque sagRank : Nat → PosIx → Nat

end Sys2Proof.Config
end

