-- ==== Sys2Proof/Syntax.lean ====
section
/-! DEFINITION. The commands of the LC24: one constructor for each row of spec/opcode_table.json, and the
gateway request a received frame carries. Operands have the widths of the byte layouts of R194 and R196. -/

namespace Sys2Proof

/-- A gateway request as the link hands it to its owning block (section 10-4), with the fields of R196.
`badFrame` stands for a frame of unknown type or disallowed payload length (R172). -/
inductive Request where
  | status
  | setConfig (mask busRate jamLimit : BitVec 16)
      (lostLimit startLimit pauseLimit doneLimit heatSlice settleTime attnMask : Byte)
  | restart
  | setClock (minute : BitVec 16) (second : Byte)
  | loadMachine (addr cls heater motor minimum maximum dflt : Byte)
  | removeMachine (addr : Byte)
  | service (addr value : Byte)
  | readMachines (mode : Byte)
  | loadTerminal (addr : Byte)
  | removeTerminal (addr : Byte)
  | showText (addr : Byte) (text : List Byte)
  | loadPrice (cls program : Byte) (base ph pc : BitVec 16) (n : Byte) (pairs : List (Byte × BitVec 16))
  | removePrice (cls program : Byte)
  | loadBands (bands : List (BitVec 16 × Byte × Byte))
  | addCard (id : CardId) (cls : Byte) (balance : BitVec 24) (discount : Byte) (limit : BitVec 16)
  | creditCard (id : CardId) (amount : BitVec 24)
  | debitCard (id : CardId) (amount : BitVec 24)
  | setCard (id : CardId) (cls discount : Byte) (limit : BitVec 16)
  | blockCard (id : CardId)
  | unblockCard (id : CardId)
  | readCard (id : CardId)
  | removeCard (id : CardId)
  | setBudget (value : Byte)
  | releaseHeat (addr : Byte)
  | loadFaultClass (code severity policy autoClear : Byte)
  | clearFault (addr : Byte)
  | readFaults
  | readSettlements
  | releaseThrough (k : BitVec 16)
  | forceEnd (addr policy : Byte)
  | badFrame (type : Byte)
  deriving DecidableEq, Repr

/-- The commands: one constructor per row of the table of steps. A request row carries the tag of its
frame. A row about one position carries the position. -/
inductive Instr where
  | status (tag : Byte)
  | setConfig (tag : Byte) (mask busRate jamLimit : BitVec 16)
      (lostLimit startLimit pauseLimit doneLimit heatSlice settleTime attnMask : Byte)
  | restart (tag : Byte)
  | setClock (tag : Byte) (minute : BitVec 16) (second : Byte)
  | loadMachine (tag addr cls heater motor minimum maximum dflt : Byte)
  | removeMachine (tag addr : Byte)
  | service (tag addr value : Byte)
  | readMachines (tag mode : Byte)
  | loadTerminal (tag addr : Byte)
  | removeTerminal (tag addr : Byte)
  | showText (tag addr : Byte) (text : List Byte)
  | loadPrice (tag cls program : Byte) (base ph pc : BitVec 16) (n : Byte)
      (pairs : List (Byte × BitVec 16))
  | removePrice (tag cls program : Byte)
  | loadBands (tag : Byte) (bands : List (BitVec 16 × Byte × Byte))
  | addCard (tag : Byte) (id : CardId) (cls : Byte) (balance : BitVec 24) (discount : Byte)
      (limit : BitVec 16)
  | creditCard (tag : Byte) (id : CardId) (amount : BitVec 24)
  | debitCard (tag : Byte) (id : CardId) (amount : BitVec 24)
  | setCard (tag : Byte) (id : CardId) (cls discount : Byte) (limit : BitVec 16)
  | blockCard (tag : Byte) (id : CardId)
  | unblockCard (tag : Byte) (id : CardId)
  | readCard (tag : Byte) (id : CardId)
  | removeCard (tag : Byte) (id : CardId)
  | setBudget (tag value : Byte)
  | releaseHeat (tag addr : Byte)
  | loadFaultClass (tag code severity policy autoClear : Byte)
  | clearFault (tag addr : Byte)
  | readFaults (tag : Byte)
  | readSettlements (tag : Byte)
  | releaseThrough (tag : Byte) (k : BitVec 16)
  | forceEnd (tag addr policy : Byte)
  | badFrame (type tag : Byte) (payload : List Byte)
  | gatewayFrameReceived (bytes : List LineTime)
  | gatewayGap
  | hold
  | go
  | replyFrameSent
  | flowCharacterSent
  | linkReset
  | visit
  | frameSent
  | replyWindowClose
  | replyComplete (chars : List BusTime)
  | replyGap (chars : List BusTime)
  | breakIndication (chars : List BusTime)
  | receiverResume
  | busJammed (ms : Nat)
  | jamEnd
  | startLimitExpiry (p : PosIx)
  | extensionLimitExpiry (p : PosIx)
  | pauseLimitExpiry (p : PosIx)
  | doneLimitExpiry (p : PosIx)
  | timeBaseTick
  | meterMinute (p : PosIx)
  | sliceExpiry (p : PosIx)
  | sagAssert
  | sagRelease
  | settleTimeEnd
  | powerUp (strap1 strap0 : Bool)
  | resetNAssert (cut : Nat)
  | resetPin (strap1 strap0 : Bool)
  | restartRequest (strap1 strap0 : Bool)
  | vddFall (cut : Nat) (vbakHeld : Bool)
  | vbakFall
  | huntingResumed
  | frameLengthOutOfRange (len : Byte)
  deriving DecidableEq, Repr

end Sys2Proof
end

