-- ==== Sys2Proof/Decode.lean ====
section
/-! DEFINITION. The decoder over the bits of the table of steps. No row of spec/opcode_table.json gives bits, so
no word spells a command; request frames are decoded by Sys2Proof/Machine/Layout.lean (R196). -/

namespace Sys2Proof

/-- The command that a word spells by the table's bits: none, since no row gives bits. -/
def decodeTableWord (nbits w : Nat) : Option Instr :=
  match nbits, w with
  | _, _ => none

end Sys2Proof
end

