-- ==== Sys2Proof/Machine/State.lean ====
section
/-! DEFINITION. The state of the LC24 as plain data: the retained store of R182, the volatile state of each
block, the pins, and the queue of waiting commands; the state after reset; and how a step can stop. -/

namespace Sys2Proof.Machine

/-! ## Named values -/

/-- Machine class (R23). -/
inductive MachineClass where | washer | dryer
  deriving DecidableEq, Repr

/-- Machine state of a STATE reply (R29). -/
inductive MachineState where | ready | doorOpen | running | paused | done
  deriving DecidableEq, Repr

/-- Program phase of a STATE reply (R29). -/
inductive Phase where | none | fill | wash | heat | rinse | spin | tumble | cool
  deriving DecidableEq, Repr

/-- Presence of a node (section 1-7). -/
inductive Presence where | unheard | present | lost
  deriving DecidableEq, Repr

/-- Last miss kind of a node, and the detail of NODE_LOST (R20, R144). -/
inductive MissKind where | silent | damaged
  deriving DecidableEq, Repr

/-- Availability of a position (R28). -/
inductive Availability where | unconfigured | free | inUse | unavailable
  deriving DecidableEq, Repr

/-- Card class (R59). -/
inductive CardClass where | resident | staff | service
  deriving DecidableEq, Repr

/-- Card state (R59). -/
inductive CardState where | active | blocked
  deriving DecidableEq, Repr

/-- Session state (R97). -/
inductive SessionState where | starting | running | paused | ending
  deriving DecidableEq, Repr

/-- Grant state (section 7-3). -/
inductive Grant where | none | queued | granted | releasing
  deriving DecidableEq, Repr

/-- Severity of a fault code (chapter 8). -/
inductive Severity where | notice | lockout | safety
  deriving DecidableEq, Repr

/-- Refund policy of a fault code (chapter 8). -/
inductive Policy where | full | unused | none
  deriving DecidableEq, Repr

/-- End reason of a settlement record (R159). -/
inductive EndReason where
  | completed | fault | abandoned | doneTimeout | cycleLost | powerLoss | restarted | operator
  deriving DecidableEq, Repr

/-- Decline reasons in the order of the table of section 3-4. -/
inductive DeclineReason where
  | noSuchMachine | unknownCard | cardBlocked | roomClosed | machineUnavailable | machineBusy
  | noSuchProgram | machineNotReady | settlementFull | roomAtCapacity | insufficientFunds | dailyLimit
  | topupAtMaximum | machineNoResponse | machineFault | terminalBusy
  deriving DecidableEq, Repr

/-- Refusal reason of an order (R194). -/
inductive RefusalReason where | doorOpen | notReady | badProgram
  deriving DecidableEq, Repr

/-- Outcome of an order (R32). -/
inductive OrderOutcome where | taken | refused (reason : RefusalReason)
  deriving DecidableEq, Repr

/-- The kind of a start (R187). -/
inductive StartKind where | coldStart | warmStart | resetPin | restartRequest
  deriving DecidableEq, Repr

/-- The status of a reply (R172). -/
inductive Status where
  | ok | badFrame | badValue | notFound | duplicate | full | inUse | refusedState
  deriving DecidableEq, Repr

/-- Attention causes in priority order (R179). -/
inductive Cause where
  | safety | settlementHigh | lockout | faultsWaiting | settlementsWaiting | machineChanged | restarted
  deriving DecidableEq, Repr

/-- The four room bus rates (R2). -/
inductive BusRate where | r9600 | r19200 | r38400 | r57600
  deriving DecidableEq, Repr

/-- The four gateway rates (R167). -/
inductive GatewayRate where | r19200 | r38400 | r57600 | r115200
  deriving DecidableEq, Repr

/-! ## Retained records -/

/-- Purchase limits of a dryer position in minutes (R23). -/
structure PurchaseLimits where
  minimum : Nat
  maximum : Nat
  dflt : Nat
  deriving DecidableEq, Repr

/-- The configuration fields of a position; `limits` is absent for a washer (R23). -/
structure PosConfig where
  cls : MachineClass
  heater : Nat
  motor : Nat
  limits : Option PurchaseLimits
  deriving DecidableEq, Repr

/-- An active fault with its code, severity and auto-clear flag (R151). -/
structure ActiveFault where
  code : Nat
  severity : Severity
  autoClear : Bool
  deriving DecidableEq, Repr

/-- The retained part of a position record (R23, R182). `oos` is the condition OUT_OF_SERVICE (R26). -/
structure PosRecord where
  config : Option PosConfig
  oos : Bool
  fault : Option ActiveFault
  deriving DecidableEq, Repr

/-- An unconfigured position record (R23). -/
def PosRecord.empty : PosRecord := { config := .none, oos := false, fault := .none }

/-- A card record (R59). -/
structure Card where
  id : CardId
  cls : CardClass
  state : CardState
  balance : Nat
  held : Nat
  discount : Nat
  limit : Option Nat
  spent : Nat
  deriving DecidableEq, Repr

/-- The four options (R82). -/
inductive WashOption where | prewash | extraRinse | hot | heavy
  deriving DecidableEq, Repr

/-- A price table entry (R82). -/
structure PriceEntry where
  cls : MachineClass
  program : Nat
  base : Nat
  ph : Nat
  pc : Nat
  n : Nat
  surcharges : List (WashOption × Nat)
  deriving DecidableEq, Repr

/-- A band of the band table (R85). -/
structure Band where
  start : Nat
  multiplier : Nat
  closed : Bool
  deriving DecidableEq, Repr

/-- The classification of a fault code (chapter 8). -/
structure FaultClass where
  severity : Severity
  policy : Policy
  autoClear : Bool
  deriving DecidableEq, Repr

/-- The configuration set by SET CONFIG (R176). Limits are in the units of the table of R176; the mask has
bit `n - 1` for the cause of priority `n`. -/
structure RoomConfig where
  busRate : BusRate
  jamLimit : Nat
  lostLimit : Nat
  startLimit : Nat
  pauseLimit : Nat
  doneLimit : Nat
  heatSlice : Nat
  settleTime : Nat
  attnMask : BitVec 7
  deriving DecidableEq, Repr

/-- The defaults of R176. -/
def RoomConfig.default : RoomConfig :=
  { busRate := .r19200, jamLimit := 500, lostLimit := 4, startLimit := 15, pauseLimit := 15,
    doneLimit := 10, heatSlice := 6, settleTime := 10, attnMask := 127#7 }

/-- An open extension of a session (R97, R112). `limit` is the extension limit: stopped, or seconds
left. -/
structure Extension where
  minutes : Nat
  hold : Nat
  term : TermIx
  reqTag : Byte
  limit : Option Nat
  deriving DecidableEq, Repr

/-- A session record (R97). A limit is stopped (`none`) or has its seconds left. `minuteDue` is the model's
own field: the 60th second of the minute has been counted and METER_MINUTE is due (log entry 6). -/
structure Session where
  mclass : MachineClass
  cclass : CardClass
  program : Nat
  options : OptionSet
  cardId : CardId
  term : TermIx
  reqTag : Byte
  base : Nat
  ph : Nat
  pc : Nat
  surcharge : Nat
  n : Nat
  m : Nat
  d : Nat
  startMinute : Option Nat
  state : SessionState
  hold : Nat
  purchased : Nat
  ext : Option Extension
  elapsed : Nat
  heated : Nat
  cool : Nat
  secs : Nat
  heatSecs : Nat
  startLimit : Option Nat
  pauseLimit : Option Nat
  doneLimit : Option Nat
  holding : Bool
  startReport : Bool
  minuteDue : Bool
  deriving DecidableEq, Repr

/-- A settlement record (R159). -/
structure Settlement where
  number : Nat
  position : PosIx
  cclass : CardClass
  program : Nat
  cardId : CardId
  startMinute : Option Nat
  m : Nat
  d : Nat
  purchased : Nat
  heated : Nat
  cool : Nat
  elapsed : Nat
  hold : Nat
  charged : Nat
  reason : EndReason
  faultCode : Option Nat
  deriving DecidableEq, Repr

/-- A fault record (R155). `detail` is absent (sent as 0) for every code but NODE_LOST. -/
structure FaultRecord where
  number : Nat
  code : Nat
  position : Option PosIx
  severity : Severity
  minute : Option Nat
  settlement : Option Nat
  detail : Option MissKind
  deriving DecidableEq, Repr

/-- The card part of a journal entry (R185). -/
inductive CardPart where
  | absent
  | record (c : Card)
  | removal (id : CardId)
  | rollover
  deriving DecidableEq, Repr

/-- The session part of a journal entry (R185). -/
inductive SessionPart where
  | absent
  | record (p : PosIx) (ses : Session)
  | removal (p : PosIx)
  deriving DecidableEq, Repr

/-- An entry of the money journal (R66, R185). -/
structure JournalEntry where
  card : CardPart
  settlement : Option Settlement
  session : SessionPart
  deriving DecidableEq, Repr

/-- The retained store (R182), with the retention valid flag that VBAK keeps beside it (R184). `none` in
`journal` is EMPTY. -/
structure Retained where
  positions : Vector PosRecord 24
  terminals : Vector Bool 4
  cards : List Card
  prices : List PriceEntry
  bands : List Band
  classes : Vector FaultClass 15
  config : RoomConfig
  budget : Nat
  pendingBudget : Option Nat
  sessions : Vector (Option Session) 24
  settlements : List Settlement
  nextSettlement : Nat
  faults : List FaultRecord
  nextFault : Nat
  overflow : Bool
  journal : Option JournalEntry
  valid : Bool
  deriving DecidableEq, Repr

/-- The RETENTION_LOST record of a cold start (R155). -/
def retentionLostRecord : FaultRecord :=
  { number := 1, code := 24, position := none, severity := .notice, minute := none, settlement := none,
    detail := none }

/-- The retained store as a cold start initialises it, before the flag is set (R188). -/
def Retained.initial : Retained :=
  { positions := Vector.replicate 24 PosRecord.empty
    terminals := Vector.replicate 4 false
    cards := []
    prices := []
    bands := []
    classes := Vector.replicate 15 { severity := .lockout, policy := .full, autoClear := false }
    config := RoomConfig.default
    budget := 0
    pendingBudget := none
    sessions := Vector.replicate 24 none
    settlements := []
    nextSettlement := 1
    faults := [retentionLostRecord]
    nextFault := 2
    overflow := false
    journal := none
    valid := false }

/-! ## Volatile records -/

/-- The room clock (R78). -/
structure Clock where
  minute : Nat
  second : Nat
  valid : Bool
  deriving DecidableEq, Repr

/-- The last STATE of a position (R29). -/
structure LastState where
  cls : MachineClass
  mstate : MachineState
  phase : Phase
  doorLocked : Bool
  heaterOn : Bool
  heatRequest : Bool
  remaining : Nat
  fault : Nat
  deriving DecidableEq, Repr

/-- What an order asks of a machine, with its payload (section 2-6). -/
inductive OrderBody where
  | start (program : Nat) (options : OptionSet) (minutes : Nat)
  | extend (minutes : Nat)
  | finish
  | heatOn
  | heatOff
  | halt
  | disable
  | enable
  deriving DecidableEq, Repr

/-- An order in a queue. `tag` is present when the order is in delivery (R16). `owned` says that the
session or extension that queued a START or EXTEND still stands (R105, R114; log entry 18). -/
structure Order where
  body : OrderBody
  owned : Bool
  tag : Option ItemTag
  deriving DecidableEq, Repr

/-- The bus state of a node (R15, R17, R20). -/
structure NodeBus where
  presence : Presence
  miss : Nat
  skip : Nat
  counter : ItemTag
  learned : Bool
  lastMiss : Option MissKind
  deriving DecidableEq, Repr

/-- The bus state of a newly loaded node and of every node after a start (R15, R22). -/
def NodeBus.new : NodeBus :=
  { presence := .unheard, miss := 0, skip := 0, counter := 0#4, learned := false, lastMiss := none }

/-- The volatile part of a position: position table, bus state, heat budget unit, fault unit and session
table marks (R29, R30, R33, R35, R27, R143, R125, R116). -/
structure PosState where
  lastState : Option LastState
  mismatch : Bool
  owed : Bool
  changed : Bool
  orders : List Order
  prevFault : Nat
  bus : NodeBus
  grant : Grant
  slice : Option Nat
  heatRequest : Bool
  violations : Nat
  armed : Bool
  unpaid : Bool
  windDown : Bool
  deriving DecidableEq, Repr

/-- The volatile state of a position at a start and when it is first configured. -/
def PosState.new : PosState :=
  { lastState := none, mismatch := false, owed := false, changed := false, orders := [], prevFault := 0,
    bus := NodeBus.new, grant := .none, slice := none, heatRequest := false, violations := 0,
    armed := false, unpaid := false, windDown := false }

/-- The fields of an ANSWER (R58). `decline` is absent in an ACCEPT, whose reason is NONE. -/
structure Answer where
  reqTag : Byte
  decline : Option DeclineReason
  amount : Nat
  minutes : Nat
  options : OptionSet
  available : Option Nat
  deriving DecidableEq, Repr

/-- What an outbox item holds: an ANSWER (and whether it is the TERMINAL_BUSY answer of R50) or a TEXT. -/
inductive ItemBody where
  | answer (a : Answer) (busy : Bool)
  | text (chars : List Byte)
  deriving DecidableEq, Repr

/-- An outbox item; `tag` is present when it is in delivery (R16). -/
structure Item where
  body : ItemBody
  tag : Option ItemTag
  deriving DecidableEq, Repr

/-- The volatile part of a terminal record (R45). -/
structure TermState where
  request : Option Byte
  lastTag : Option Byte
  outbox : List Item
  bus : NodeBus
  deriving DecidableEq, Repr

/-- A terminal record's volatile part after a start and when it is first configured (R45, R46). -/
def TermState.new : TermState :=
  { request := none, lastTag := none, outbox := [], bus := NodeBus.new }

/-- A place of the visit pattern (R12). -/
inductive Slot where | machine1 | machine2 | terminal
  deriving DecidableEq, Repr

/-- A node of the room bus (section 0-4). -/
inductive Node where
  | machine (p : PosIx)
  | terminal (t : TermIx)
  deriving DecidableEq, Repr

/-- How far a visit is: its frame is being sent, its reply window is open, or its reply has begun; a
reply holds the characters received, and whether a break has ended it (R4, R5, R8). -/
inductive VisitPhase where
  | sending
  | window
  | reply (chars : List BusChar) (broken : Bool)
  deriving DecidableEq, Repr

/-- The visit in progress. `tag` is the tag of the item carried, absent for an ASK; `frame` the character times
sent, one after another with no idle time (R1); `removed` says that the node was removed during the visit (R15;
log entry 17). -/
structure Visit where
  node : Node
  tag : Option ItemTag
  frame : List BusTime
  rate : BusRate
  phase : VisitPhase
  removed : Bool
  deriving DecidableEq, Repr

/-- The room bus port and the poll sequencer (chapter 1). `space` is the stretch of space being timed, in
ms (R9; log entry 12). -/
structure BusState where
  machinePtr : Option PosIx
  terminalPtr : Option TermIx
  slot : Slot
  jammed : Bool
  listening : Bool
  space : Option Nat
  visit : Option Visit
  deriving DecidableEq, Repr

/-- The bus after a start (R22). -/
def BusState.new : BusState :=
  { machinePtr := none, terminalPtr := none, slot := .machine1, jammed := false, listening := false,
    space := none, visit := none }

/-- The sag state, with the settle time left in seconds (section 7-5). -/
inductive Sag where
  | normal
  | asserted
  | settling (left : Nat)
  deriving DecidableEq, Repr

/-- The heat budget unit's room-wide state: the grant queue, the grant order and the sag state (R125,
R126, R134). -/
structure HeatState where
  queue : List PosIx
  order : List PosIx
  sag : Sag
  deriving DecidableEq, Repr

/-- The heat budget unit after a start, before SAG is sampled (R125, R189). -/
def HeatState.new : HeatState := { queue := [], order := [], sag := .normal }

/-- The gateway frame receiver (section 10-2, R175). `assembling` holds the bytes after SYNC. -/
inductive Receiver where
  | hunting
  | assembling (bytes : List LineByte)
  | ignoring
  deriving DecidableEq, Repr

/-- A request waiting in the request buffer: the type and tag its reply carries, and the request. -/
structure Waiting where
  type : Byte
  tag : Byte
  req : Request
  deriving DecidableEq, Repr

/-- A reply frame of the transmit queue (R172, R196). -/
structure ReplyFrame where
  type : Byte
  tag : Byte
  status : Status
  payload : List Byte
  deriving DecidableEq, Repr

/-- A flow character of the part (R173). -/
inductive FlowChar where | hold | go
  deriving DecidableEq, Repr

/-- The gateway link (chapter 10). `sending` says that the head of the transmit queue is being sent;
`holding` is the receive hold state HOLDING; `held` the transmit hold state HELD; `restarting` that RESTART
has stopped request processing (R177). -/
structure LinkState where
  receiver : Receiver
  buffer : List Waiting
  transmit : List ReplyFrame
  sending : Bool
  flow : Option FlowChar
  holding : Bool
  held : Bool
  restarting : Bool
  rate : GatewayRate
  cause : StartKind
  restarted : Bool
  deriving DecidableEq, Repr

/-- The supply and reset of the part (R183, R187). `waiting` says that a power-up waits for the release
of RESET_N. -/
structure Power where
  vdd : Bool
  resetHeld : Bool
  waiting : Bool
  deriving DecidableEq, Repr

/-- The levels of the SAG and strap inputs. -/
structure Pins where
  sag : Bool
  strap1 : Bool
  strap0 : Bool
  deriving DecidableEq, Repr

/-- The state of the LC24. `trail`, `draws` and `lastSent` are the model's own fields: the retained store
before each retained write of the last event, newest first (log entry 7); the number of free values drawn
(log entry 10); the bytes last sent on UTX (log entry 25). -/
structure State where
  pending : List Instr
  ret : Retained
  trail : List Retained
  power : Power
  pins : Pins
  clock : Clock
  pos : Vector PosState 24
  term : Vector TermState 4
  bus : BusState
  heat : HeatState
  link : LinkState
  draws : Nat
  lastSent : List LineTime
  deriving DecidableEq, Repr

/-- The gateway link after a start of the given kind, at the rate the straps give (R181). -/
def LinkState.start (rate : GatewayRate) (kind : StartKind) : LinkState :=
  { receiver := .ignoring, buffer := [], transmit := [], sending := false, flow := none,
    holding := false, held := false, restarting := false, rate := rate, cause := kind,
    restarted := true }

/-- The machine right after reset: the end of a COLD_START with SAG low and straps 00 (R188, R22, R181,
and the start tables of each chapter; log entry 1). -/
def State.reset : State :=
  { pending := []
    ret := { Retained.initial with valid := true }
    trail := []
    power := { vdd := true, resetHeld := false, waiting := false }
    pins := { sag := false, strap1 := false, strap0 := false }
    clock := { minute := 0, second := 0, valid := false }
    pos := Vector.replicate 24 PosState.new
    term := Vector.replicate 4 TermState.new
    bus := BusState.new
    heat := HeatState.new
    link := LinkState.start .r19200 .coldStart
    draws := 0
    lastSent := [] }

/-! ## How a step can stop -/

/-- The LC24 never stops with a fault: every step of the table has an effect, and the faults of chapter 8
are records of the state. So no constructor exists and no meaning raises one (safe). -/
inductive Fault where
  deriving DecidableEq, Repr

/-- Why a command has no meaning. -/
inductive Refusal where
  /-- Raised by `exec` for a row that has no meaning yet; safe. No row is left so. -/
  | notModelled (mnemonic : String)
  deriving DecidableEq, Repr

end Sys2Proof.Machine
end

