-- ==== Sys2Proof/Machine/Ops.lean ====
section
/-! DEFINITION. The named operations over the state that every block uses: reading and updating one
position, terminal or retained item, a retained write (R183), the fault queue (R155 to R157) and the derived
loads (R120). -/

namespace Sys2Proof.Machine

/-- The 24 positions in rising order of address. -/
def allPositions : List PosIx :=
  [0, 1, 2, 3, 4, 5, 6, 7, 8, 9, 10, 11, 12, 13, 14, 15, 16, 17, 18, 19, 20, 21, 22, 23]

/-- The 4 terminals in rising order of address. -/
def allTerminals : List TermIx := [0, 1, 2, 3]

/-- The position a room-bus address names: 1 to 24, else none (R23). -/
def posOf (a : Byte) : Option PosIx :=
  if h : 1 ≤ a.toNat ∧ a.toNat ≤ 24 then some ⟨a.toNat - 1, by omega⟩ else none

/-- The terminal a room-bus address names: 25 to 28, else none (R45). -/
def termOf (a : Byte) : Option TermIx :=
  if h : 25 ≤ a.toNat ∧ a.toNat ≤ 28 then some ⟨a.toNat - 25, by omega⟩ else none

/-! ## Reading -/

/-- The retained record of a position. -/
def State.record (s : State) (p : PosIx) : PosRecord := s.ret.positions[p.val]

/-- The volatile state of a position. -/
def State.vol (s : State) (p : PosIx) : PosState := s.pos[p.val]

/-- The open session of a position, if any (R97). -/
def State.session (s : State) (p : PosIx) : Option Session := s.ret.sessions[p.val]

/-- The volatile state of a terminal. -/
def State.terminal (s : State) (t : TermIx) : TermState := s.term[t.val]

/-- Whether a position is configured (R23). -/
def State.configured (s : State) (p : PosIx) : Bool := (s.record p).config.isSome

/-- Whether a terminal is configured (R45). -/
def State.termConfigured (s : State) (t : TermIx) : Bool := s.ret.terminals[t.val]

/-- The card with an id, if the table holds one (R60). -/
def State.card (s : State) (id : CardId) : Option Card := s.ret.cards.find? (fun c => c.id == id)

/-- The available balance of a known card: its balance minus its held amount (section 4-2). -/
def State.available (s : State) (id : CardId) : Option Nat :=
  (s.card id).map (fun c => c.balance - c.held)

/-- The clock's minute, absent while the clock is invalid (R81). -/
def State.minuteNow (s : State) : Option Nat := if s.clock.valid then some s.clock.minute else none

/-- The number of open sessions. -/
def State.openSessions (s : State) : Nat := (allPositions.filter (fun p => (s.session p).isSome)).length

/-- The part takes events: VDD is present, RESET_N is not asserted and no power-up waits for its release
(R183, R187). -/
def State.live (s : State) : Bool := s.power.vdd && !s.power.resetHeld && !s.power.waiting

/-! ## Updating -/

/-- One retained write, whole (R183). The trail keeps the store as it stood before it (log entry 7). -/
def State.write (f : Retained → Retained) (s : State) : State :=
  { s with ret := f s.ret, trail := s.ret :: s.trail }

/-- Changes the retained record of a position, as one retained write. -/
def State.setRecord (p : PosIx) (f : PosRecord → PosRecord) (s : State) : State :=
  s.write fun r => { r with positions := r.positions.set p.val (f r.positions[p.val]) }

/-- Changes the session record of a position, as one retained write. -/
def State.setSession (p : PosIx) (f : Option Session → Option Session) (s : State) : State :=
  s.write fun r => { r with sessions := r.sessions.set p.val (f r.sessions[p.val]) }

/-- Changes the volatile state of a position. -/
def State.setVol (p : PosIx) (f : PosState → PosState) (s : State) : State :=
  { s with pos := s.pos.set p.val (f s.pos[p.val]) }

/-- Changes the volatile state of a terminal. -/
def State.setTerm (t : TermIx) (f : TermState → TermState) (s : State) : State :=
  { s with term := s.term.set t.val (f s.term[t.val]) }

/-- Changes the room bus port and the poll sequencer. -/
def State.setBus (f : BusState → BusState) (s : State) : State := { s with bus := f s.bus }

/-- Changes the heat budget unit's room-wide state. -/
def State.setHeat (f : HeatState → HeatState) (s : State) : State := { s with heat := f s.heat }

/-- Changes the gateway link. -/
def State.setLink (f : LinkState → LinkState) (s : State) : State := { s with link := f s.link }

/-- Sets the changed flag of a position (R33). -/
def State.markChanged (p : PosIx) (s : State) : State := s.setVol p fun v => { v with changed := true }

/-- Changes the volatile state of every position. -/
def State.setAllVol (f : PosIx → PosState → PosState) (s : State) : State :=
  allPositions.foldl (fun s p => s.setVol p (f p)) s

/-- The number that follows `n` in a numbering from 1 to `top` (R156, R161). -/
def nextNumber (top n : Nat) : Nat := if top ≤ n then 1 else n + 1

/-! ## The fault queue -/

/-- Makes room in a full fault queue: the oldest NOTICE record leaves, or else the oldest record (R157). -/
def dropForOverflow (q : List FaultRecord) : List FaultRecord :=
  if q.any (fun r => r.severity == .notice) then q.eraseP (fun r => r.severity == .notice) else q.tail

/-- Appends one fault record with the next record number (R156, R157), as one retained write. -/
def appendFault (code : Nat) (position : Option PosIx) (severity : Severity) (settlement : Option Nat)
    (detail : Option MissKind) (s : State) : State :=
  s.write fun r =>
    let full := Config.faultCapacity ≤ r.faults.length
    let rec1 : FaultRecord :=
      { number := r.nextFault, code := code, position := position, severity := severity,
        minute := s.minuteNow, settlement := settlement, detail := detail }
    { r with
      faults := (if full then dropForOverflow r.faults else r.faults) ++ [rec1]
      nextFault := nextNumber Config.maxFaultNumber r.nextFault
      overflow := r.overflow || full }

/-- Raises a NOTICE: it is recorded and nothing else changes (R147). -/
def raiseNotice (code : Nat) (position : Option PosIx) (settlement : Option Nat) (s : State) : State :=
  appendFault code position .notice settlement none s

/-! ## Loads -/

/-- The motor load of a position; 0 where it is unconfigured. -/
def State.motorLoad (s : State) (p : PosIx) : Nat := ((s.record p).config.map (·.motor)).getD 0

/-- The heater demand of a position; 0 where it is unconfigured. -/
def State.heaterDemand (s : State) (p : PosIx) : Nat := ((s.record p).config.map (·.heater)).getD 0

/-- Whether a grant counts its heater demand in committed load (section 7-3). -/
def Grant.counted : Grant → Bool
  | .granted | .releasing => true
  | .none | .queued => false

/-- What one position adds to committed load (R120). -/
def State.loadOf (s : State) (p : PosIx) : Nat :=
  (if (s.session p).isSome then s.motorLoad p else 0)
    + (if (s.vol p).grant.counted then s.heaterDemand p else 0)

/-- The committed load: motor loads of positions with an open session and heater demands of positions
whose grant is GRANTED or RELEASING (R120). -/
def State.committed (s : State) : Nat := (allPositions.map s.loadOf).sum

/-- Whether a position is configured as a DRYER. -/
def State.isDryer (s : State) (p : PosIx) : Bool :=
  (s.record p).config.any (fun c => c.cls == .dryer)

/-- Whether the session of a position is in a given state. -/
def State.sessionIs (s : State) (p : PosIx) (st : SessionState) : Bool :=
  (s.session p).any (fun ses => ses.state == st)

end Sys2Proof.Machine
end

