-- ==== Sys2Proof/Machine/Flags.lean ====
section
/-! DEFINITION. What the state shows without storing it: display demand (R27), availability (R28), the
attention causes and ATTN_N (R179, R180), and the BDE output (R3). -/

namespace Sys2Proof.Machine

/-- The display demand of a position is OUT_OF_ORDER (R27): OUT_OF_SERVICE is set or an active fault is
present. -/
def State.outOfOrder (s : State) (p : PosIx) : Bool := (s.record p).oos || (s.record p).fault.isSome

/-- The availability of a position, in the first row of R28 that applies. -/
def State.availability (s : State) (p : PosIx) : Availability :=
  if !s.configured p then .unconfigured
  else if (s.session p).isSome then .inUse
  else if (s.vol p).bus.presence == .present && !(s.record p).fault.isSome && !(s.record p).oos then .free
  else .unavailable

/-- Some position's active fault has the given severity (R151). -/
def State.anyFault (s : State) (sev : Severity) : Bool :=
  allPositions.any fun p => (s.record p).fault.any (fun f => f.severity == sev)

/-- Whether an attention cause is present (R179). -/
def State.causePresent (s : State) : Cause → Bool
  | .safety => s.anyFault .safety
  | .settlementHigh => Config.settlementHighMark ≤ s.ret.settlements.length
  | .lockout => s.anyFault .lockout
  | .faultsWaiting => !s.ret.faults.isEmpty
  | .settlementsWaiting => !s.ret.settlements.isEmpty
  | .machineChanged => allPositions.any fun p => (s.vol p).changed
  | .restarted => s.link.restarted

/-- The seven causes, highest priority first (R179). -/
def Cause.all : List Cause :=
  [.safety, .settlementHigh, .lockout, .faultsWaiting, .settlementsWaiting, .machineChanged, .restarted]

/-- The priority number of a cause, 1 to 7 (R179). -/
def Cause.priority : Cause → Nat
  | .safety => 1
  | .settlementHigh => 2
  | .lockout => 3
  | .faultsWaiting => 4
  | .settlementsWaiting => 5
  | .machineChanged => 6
  | .restarted => 7

/-- Whether the attention mask enables a cause: bit `n - 1` for priority `n` (R180, R196). -/
def State.causeEnabled (s : State) (c : Cause) : Bool := s.ret.config.attnMask.getLsbD (c.priority - 1)

/-- The present, unmasked cause of highest priority (R178). -/
def State.highestCause (s : State) : Option Cause :=
  Cause.all.find? fun c => s.causePresent c && s.causeEnabled c

/-- ATTN_N is asserted (driven low): the part is live and a cause is present and enabled (R180). -/
def State.attention (s : State) : Bool :=
  s.live && Cause.all.any fun c => s.causePresent c && s.causeEnabled c

/-- BDE is asserted while the port sends a visit's frame (R3). -/
def State.driverEnabled (s : State) : Bool :=
  s.bus.visit.any fun v => v.phase == .sending

end Sys2Proof.Machine
end

