-- ==== Sys2Proof/Machine/Orders.lean ====
section
/-! DEFINITION. The order queue of a position (section 2-6): its coalescing as functions of the queue alone
(R36 to R40), and the operations of the position table that owe no report to an owner: appending, display
orders (R27, R39) and the removal of a session's own orders. -/

namespace Sys2Proof.Machine

/-- An order not yet sent (section 2-6). -/
def Order.undelivered (o : Order) : Bool := o.tag.isNone

/-- START, EXTEND, END and HEAT_ON: the orders HALT removes (R37). -/
def OrderBody.strippable : OrderBody → Bool
  | .start .. | .extend _ | .finish | .heatOn => true
  | .heatOff | .halt | .disable | .enable => false

/-- DISABLE and ENABLE (R39). -/
def OrderBody.display : OrderBody → Bool
  | .disable | .enable => true
  | .start .. | .extend _ | .finish | .heatOn | .heatOff | .halt => false

/-- START. -/
def OrderBody.isStart : OrderBody → Bool
  | .start .. => true
  | .extend _ | .finish | .heatOn | .heatOff | .halt | .disable | .enable => false

/-- EXTEND. -/
def OrderBody.isExtend : OrderBody → Bool
  | .extend _ => true
  | .start .. | .finish | .heatOn | .heatOff | .halt | .disable | .enable => false

/-- An order as it is queued: undelivered. -/
def newOrder (body : OrderBody) : Order := { body := body, owned := true, tag := none }

/-- An order that may be removed to make room: undelivered and neither HALT nor HEAT_OFF (R40). -/
def Order.displaceable (o : Order) : Bool :=
  o.undelivered && !(o.body == .halt) && !(o.body == .heatOff)

/-- Makes room in a full queue: the newest displaceable order leaves (R40). -/
def makeRoom (q : List Order) : List Order × Option Order :=
  if q.length < Config.orderCapacity then (q, none)
  else ((q.reverse.eraseP Order.displaceable).reverse, q.reverse.find? Order.displaceable)

/-- The first place behind the order in delivery (R37). -/
def insertAtFront (o : Order) : List Order → List Order
  | [] => [o]
  | h :: t => if h.undelivered then o :: h :: t else h :: o :: t

/-- The first place behind an undelivered HALT at the head, if one is there (R38). -/
def insertBehindHalt (o : Order) : List Order → List Order
  | [] => [o]
  | h :: t => if h.undelivered && h.body == .halt then h :: o :: t else o :: h :: t

/-- The first place behind the order in delivery and an undelivered HALT (R38). -/
def insertHeatOff (o : Order) : List Order → List Order
  | [] => [o]
  | h :: t => if h.undelivered then insertBehindHalt o (h :: t) else h :: insertBehindHalt o t

/-! ### HALT and HEAT_OFF

Both work through their steps one removal at a time: an order that leaves the queue is reported to its owner
before the position table goes on with the HALT or HEAT_OFF (R35), so a step is a function of the queue as the
last report left it. -/

/-- The orders that coalesce with the queue: HALT (R37) and HEAT_OFF (R38). -/
inductive Urgent where | halt | heatOff
  deriving DecidableEq, Repr

/-- The order that is asked for. -/
def Urgent.body : Urgent → OrderBody
  | .halt => .halt
  | .heatOff => .heatOff

/-- What step 1 removes: for HALT every undelivered START, EXTEND, END and HEAT_ON (R37), for HEAT_OFF an
undelivered HEAT_ON (R38). -/
def Urgent.cancels (u : Urgent) (o : Order) : Bool :=
  match u with
  | .halt => o.undelivered && o.body.strippable
  | .heatOff => o.undelivered && o.body == .heatOn

/-- Whether the order is merged into one that waits undelivered (step 2 of R37 and R38). -/
def Urgent.merges (u : Urgent) (q : List Order) : Bool := q.any fun o => o.undelivered && o.body == u.body

/-- The order in its place (step 3 of R37 and R38). -/
def Urgent.place (u : Urgent) (q : List Order) : List Order :=
  match u with
  | .halt => insertAtFront (newOrder .halt) q
  | .heatOff => insertHeatOff (newOrder .heatOff) q

/-- One step with a HALT or HEAT_OFF: the queue after it, the order that left it, and whether nothing is left
to do, the order being placed, merged or absorbed. -/
structure UrgentStep where
  orders : List Order
  removed : Option Order
  finished : Bool
  deriving DecidableEq, Repr

/-- The next step on a queue (R37, R38, R40). A HEAT_OFF is absorbed by the HEAT_ON it removes (R38 step 1). A
full queue of the part always has an order to displace (R40); on any other full queue nothing is placed (log
entry 22). -/
def Urgent.step (u : Urgent) (q : List Order) : UrgentStep :=
  if q.any u.cancels then
    { orders := q.eraseP u.cancels, removed := q.find? u.cancels, finished := u == .heatOff }
  else if u.merges q then { orders := q, removed := none, finished := true }
  else if q.length < Config.orderCapacity then { orders := u.place q, removed := none, finished := true }
  else
    { orders := (makeRoom q).1, removed := (makeRoom q).2, finished := !q.any Order.displaceable }

/-- The order in its place at once, room being made before it (R40). -/
def Urgent.placeAtOnce (u : Urgent) (q : List Order) : UrgentStep :=
  if u.merges q then { orders := q, removed := none, finished := true }
  else
    let room := makeRoom q
    { orders := if room.1.length < Config.orderCapacity then u.place room.1 else room.1
      removed := room.2
      finished := true }

/-- DISABLE or ENABLE is asked for (R39): the queue after it, and whether a display order is owed. -/
def queueDisplay (body : OrderBody) (q : List Order) : List Order × Bool :=
  let kept := q.filter fun o => !(o.undelivered && o.body.display)
  if kept.length < Config.orderCapacity then (kept ++ [newOrder body], false) else (kept, true)

/-- Whether a HEAT_OFF stands in the queue, undelivered or in delivery (R131, R138). -/
def PosState.heatOffStands (v : PosState) : Bool := v.orders.any fun o => o.body == .heatOff

/-- Whether a HALT stands in the queue, undelivered or in delivery (R116). -/
def PosState.haltStands (v : PosState) : Bool := v.orders.any fun o => o.body == .halt

/-! ## Operations of the position table -/

/-- Whether a position's queue has room for one more order (R36). -/
def State.queueHasRoom (s : State) (p : PosIx) : Bool :=
  (s.vol p).orders.length < Config.orderCapacity

/-- Adds an order at the tail (R36); the caller has asked `queueHasRoom`. -/
def appendOrder (p : PosIx) (o : Order) (s : State) : State :=
  s.setVol p fun v => { v with orders := v.orders ++ [o] }

/-- Queues the display order that matches the demand, or marks it owed (R27, R39). -/
def askDisplay (p : PosIx) (s : State) : State :=
  let r := queueDisplay (if s.outOfOrder p then .disable else .enable) (s.vol p).orders
  s.setVol p fun v => { v with orders := r.1, owed := r.2 }

/-- The attempt that follows a removal while a display order is owed (R27). -/
def serveOwed (p : PosIx) (s : State) : State := if (s.vol p).owed then askDisplay p s else s

/-- A session or extension lets its own orders go: undelivered ones leave the queue without report, one
in delivery stays and loses its owner (R102, R114, R115). -/
def letGo (isOwn : OrderBody → Bool) (p : PosIx) (s : State) : State :=
  let q := (s.vol p).orders
  let kept := q.filter fun o => !(o.undelivered && isOwn o.body && o.owned)
  let freed := kept.map fun o => if isOwn o.body then { o with owned := false } else o
  let s := s.setVol p fun v => { v with orders := freed }
  if kept.length < q.length then serveOwed p s else s

/-- Applies a change to a position's retained record and queues a display order when its display demand
changes (R27). -/
def withDisplay (p : PosIx) (f : PosRecord → PosRecord) (s : State) : State :=
  let before := s.outOfOrder p
  let s := s.setRecord p f
  if s.outOfOrder p != before then askDisplay p s else s

end Sys2Proof.Machine
end

