-- ==== Sys2Proof/Machine/Heat.lean ====
section
/-! DEFINITION. The heat budget unit (chapter 7): granting (R127), falls of committed load (R120, R124), the
reports about HEAT_ON (R128), and the end of a grant. Withdrawal, which reaches the session table through the
order queue, is in Sys2Proof/Machine/Sessions.lean. -/

namespace Sys2Proof.Machine

/-- The four conditions under which the head of the grant queue is granted (R127). -/
def State.mayGrant (s : State) (p : PosIx) : Bool :=
  s.heat.sag == .normal && s.ret.pendingBudget.isNone
    && decide (s.committed + s.heaterDemand p ≤ s.ret.budget)

/-- A grant becomes NONE: its slice stops and the position leaves the grant queue and the grant order
(R125, R128, R131). -/
def endGrant (p : PosIx) (s : State) : State :=
  let s := s.setVol p fun v => { v with grant := .none, slice := none, changed := true }
  s.setHeat fun h => { h with queue := h.queue.erase p, order := h.order.erase p }

/-- A grant becomes RELEASING: its slice stops and the position leaves the grant order (R129). -/
def startRelease (p : PosIx) (s : State) : State :=
  let s := s.setVol p fun v => { v with grant := .releasing, slice := none, changed := true }
  s.setHeat fun h => { h with order := h.order.erase p }

/-- The position joins the tail of the grant queue as QUEUED (R126). -/
def joinQueue (p : PosIx) (s : State) : State :=
  let s := s.setVol p fun v => { v with grant := .queued, changed := true }
  s.setHeat fun h => { h with queue := h.queue ++ [p] }

/-- The full length of a slice in seconds (R133). -/
def State.sliceLength (s : State) : Nat := s.ret.config.heatSlice * 60

/-- The head of the grant queue is granted: it leaves the queue, is GRANTED and newest in the grant order,
a dryer's slice starts, and HEAT_ON is asked for; a HEAT_ON refused at a full queue ends the grant at once
(R127, R128). -/
def grantHead (p : PosIx) (s : State) : State :=
  let dryer := s.isDryer p
  let s := s.setHeat fun h => { h with queue := h.queue.erase p, order := h.order ++ [p] }
  let s := s.setVol p fun v =>
    { v with grant := .granted, slice := if dryer then some s.sliceLength else none, changed := true }
  if s.queueHasRoom p then appendOrder p (newOrder .heatOn) s else endGrant p s

/-- Granting with a bound on the number of heads tested. -/
def evaluateFor : Nat → State → State
  | 0, s => s
  | k + 1, s =>
    match s.heat.queue with
    | [] => s
    | p :: _ => if s.mayGrant p then evaluateFor k (grantHead p s) else s

/-- Granting is evaluated: the head of the queue is granted while it may be, strictly first in, first
out (R127). -/
def evaluate (s : State) : State := evaluateFor s.heat.queue.length s

/-- A pending budget that committed load meets becomes active (R124). -/
def activatePending (s : State) : State :=
  match s.ret.pendingBudget with
  | none => s
  | some n =>
    if s.committed ≤ n then s.write fun r => { r with budget := n, pendingBudget := none } else s

/-- A fall of committed load: the pending budget is tested, then granting is evaluated (R120). -/
def committedFell (s : State) : State := evaluate (activatePending s)

/-- A position may join the grant queue: its session is RUNNING, its heater demand is above 0 and its
grant is NONE (R126). -/
def State.mayQueue (s : State) (p : PosIx) : Bool :=
  s.sessionIs p .running && decide (0 < s.heaterDemand p) && (s.vol p).grant == .none

/-- The HEAT_ON of a position was confirmed REFUSED (R128). -/
def heatOnRefused (p : PosIx) (s : State) : State :=
  if (s.vol p).grant = .granted then committedFell (endGrant p s) else s

/-- The HEAT_ON of a position was cancelled while undelivered: its grant becomes NONE, the pending budget
is tested, the position joins the queue again while its last heat request is set, and granting is evaluated
(R128). -/
def heatOnCancelled (p : PosIx) (s : State) : State :=
  if (s.vol p).grant.counted then
    let s := activatePending (endGrant p s)
    let s := if (s.vol p).heatRequest && s.mayQueue p then joinQueue p s else s
    evaluate s
  else s

/-- The load still drawn: committed load less the heater demands of RELEASING grants (R124). -/
def State.stillDrawn (s : State) : Nat :=
  s.committed
    - (allPositions.map fun p => if (s.vol p).grant = .releasing then s.heaterDemand p else 0).sum

/-- The newest GRANTED dryer in the grant order (R124). -/
def State.newestDryer (s : State) : Option PosIx :=
  s.heat.order.reverse.find? fun p => (s.vol p).grant == .granted && s.isDryer p

end Sys2Proof.Machine
end

