-- ==== Sys2Proof/Machine/Operands.lean ====
section
/-! DEFINITION. The coded values of chapter 12 (R194, R196 and section 12-4): each set's codes both ways, the
optional fields, and the clamping of SET CONFIG (R176). -/

namespace Sys2Proof.Machine

/-! ## From codes -/

/-- Machine class codes: WASHER 1, DRYER 2 (section 12-4). -/
def MachineClass.ofCode (b : Byte) : Option MachineClass :=
  if b = 1#8 then some .washer else if b = 2#8 then some .dryer else none

/-- Card class codes: RESIDENT 0, STAFF 1, SERVICE 2 (section 12-4). -/
def CardClass.ofCode (b : Byte) : Option CardClass :=
  if b = 0#8 then some .resident else if b = 1#8 then some .staff
  else if b = 2#8 then some .service else none

/-- Severity codes: NOTICE 0, LOCKOUT 1, SAFETY 2 (section 12-4). -/
def Severity.ofCode (b : Byte) : Option Severity :=
  if b = 0#8 then some .notice else if b = 1#8 then some .lockout
  else if b = 2#8 then some .safety else none

/-- Refund policy codes: FULL 0, UNUSED 1, NONE 2 (section 12-4). -/
def Policy.ofCode (b : Byte) : Option Policy :=
  if b = 0#8 then some .full else if b = 1#8 then some .unused
  else if b = 2#8 then some .none else Option.none

/-- A yes-or-no byte: 0 or 1 (R196). -/
def flagOfCode (b : Byte) : Option Bool :=
  if b = 0#8 then some false else if b = 1#8 then some true else none

/-- Option codes of LOAD PRICE: 0 PREWASH, 1 EXTRA_RINSE, 2 HOT, 3 HEAVY (R196). -/
def WashOption.ofCode (b : Byte) : Option WashOption :=
  if b = 0#8 then some .prewash else if b = 1#8 then some .extraRinse
  else if b = 2#8 then some .hot else if b = 3#8 then some .heavy else none

/-- Machine state codes of a STATE: 0 to 4 (R194). -/
def MachineState.ofCode (b : Byte) : Option MachineState :=
  if b = 0#8 then some .ready else if b = 1#8 then some .doorOpen
  else if b = 2#8 then some .running else if b = 3#8 then some .paused
  else if b = 4#8 then some .done else none

/-- Phase codes of a STATE: 0 to 7 (R194). -/
def Phase.ofCode (b : Byte) : Option Phase :=
  if b = 0#8 then some .none else if b = 1#8 then some .fill
  else if b = 2#8 then some .wash else if b = 3#8 then some .heat
  else if b = 4#8 then some .rinse else if b = 5#8 then some .spin
  else if b = 6#8 then some .tumble else if b = 7#8 then some .cool else Option.none

/-- Refusal reason codes of a STATE: 1 to 3 (R194). -/
def RefusalReason.ofCode (b : Byte) : Option RefusalReason :=
  if b = 1#8 then some .doorOpen else if b = 2#8 then some .notReady
  else if b = 3#8 then some .badProgram else none

/-- The outcome and refusal reason bytes of a STATE: with TAKEN the reason is not examined (R194). -/
def OrderOutcome.ofCodes (outcome reason : Byte) : Option OrderOutcome :=
  if outcome = 0#8 then some .taken
  else if outcome = 1#8 then (RefusalReason.ofCode reason).map .refused
  else none

/-- An optional daily limit of 2 bytes: all ones is absent (R193). -/
def optional16 (w : BitVec 16) : Option Nat := if w = 0xFFFF#16 then none else some w.toNat

/-! ## To codes -/

/-- The code of a status (section 12-4). -/
def Status.code : Status → Nat
  | .ok => 0 | .badFrame => 1 | .badValue => 2 | .notFound => 3
  | .duplicate => 4 | .full => 5 | .inUse => 6 | .refusedState => 7

/-- The code of a machine class. -/
def MachineClass.code : MachineClass → Nat
  | .washer => 1 | .dryer => 2

/-- The code of a card class. -/
def CardClass.code : CardClass → Nat
  | .resident => 0 | .staff => 1 | .service => 2

/-- The code of a card state. -/
def CardState.code : CardState → Nat
  | .active => 0 | .blocked => 1

/-- The code of an availability. -/
def Availability.code : Availability → Nat
  | .unconfigured => 0 | .free => 1 | .inUse => 2 | .unavailable => 3

/-- The code of a presence. -/
def Presence.code : Presence → Nat
  | .unheard => 0 | .present => 1 | .lost => 2

/-- The code of a session state. -/
def SessionState.code : SessionState → Nat
  | .starting => 0 | .running => 1 | .paused => 2 | .ending => 3

/-- The code of a grant state. -/
def Grant.code : Grant → Nat
  | .none => 0 | .queued => 1 | .granted => 2 | .releasing => 3

/-- The code of a severity. -/
def Severity.code : Severity → Nat
  | .notice => 0 | .lockout => 1 | .safety => 2

/-- The detail byte of a fault record: 0, SILENT 1, DAMAGED 2. -/
def detailCode : Option MissKind → Nat
  | none => 0 | some .silent => 1 | some .damaged => 2

/-- The code of a decline reason, 1 to 16 in the order of section 3-4. -/
def DeclineReason.code : DeclineReason → Nat
  | .noSuchMachine => 1 | .unknownCard => 2 | .cardBlocked => 3 | .roomClosed => 4
  | .machineUnavailable => 5 | .machineBusy => 6 | .noSuchProgram => 7 | .machineNotReady => 8
  | .settlementFull => 9 | .roomAtCapacity => 10 | .insufficientFunds => 11 | .dailyLimit => 12
  | .topupAtMaximum => 13 | .machineNoResponse => 14 | .machineFault => 15 | .terminalBusy => 16

/-- The code of an end reason. -/
def EndReason.code : EndReason → Nat
  | .completed => 0 | .fault => 1 | .abandoned => 2 | .doneTimeout => 3
  | .cycleLost => 4 | .powerLoss => 5 | .restarted => 6 | .operator => 7

/-- The code of a reset cause. -/
def StartKind.code : StartKind → Nat
  | .coldStart => 0 | .warmStart => 1 | .resetPin => 2 | .restartRequest => 3

/-- The code of a sag state. -/
def Sag.code : Sag → Nat
  | .normal => 0 | .asserted => 1 | .settling _ => 2

/-- The code of a machine state. -/
def MachineState.code : MachineState → Nat
  | .ready => 0 | .doorOpen => 1 | .running => 2 | .paused => 3 | .done => 4

/-- The code of a phase. -/
def Phase.code : Phase → Nat
  | .none => 0 | .fill => 1 | .wash => 2 | .heat => 3 | .rinse => 4 | .spin => 5 | .tumble => 6 | .cool => 7

/-- The bit of an option in an option set (R194). -/
def WashOption.bit : WashOption → Nat
  | .prewash => 0 | .extraRinse => 1 | .hot => 2 | .heavy => 3

/-- The bus rate in hundreds of bit/s (R196). -/
def BusRate.hundreds : BusRate → Nat
  | .r9600 => 96 | .r19200 => 192 | .r38400 => 384 | .r57600 => 576

/-! ## Clamping (R176) -/

/-- A value brought into a range (R176). -/
def clamp (lo hi v : Nat) : Nat := if v < lo then lo else if hi < v then hi else v

/-- The nearest of the four bus rates to a rate in hundreds of bit/s; a value exactly midway between two
takes the lower (R176). -/
def BusRate.nearest (h : Nat) : BusRate :=
  if h ≤ 144 then .r9600 else if h ≤ 288 then .r19200 else if h ≤ 480 then .r38400 else .r57600

/-- A jam limit in ms: clamped to 100 to 2,500 and rounded down to a multiple of 100 (R176). -/
def clampJam (ms : Nat) : Nat := clamp 100 2500 ms / 100 * 100

/-- The gateway rate the straps give (R167). -/
def GatewayRate.ofStraps (strap1 strap0 : Bool) : GatewayRate :=
  match strap1, strap0 with
  | false, false => .r19200
  | false, true => .r38400
  | true, false => .r57600
  | true, true => .r115200

end Sys2Proof.Machine
end

