-- ==== Sys2Proof/Machine/Layout.lean ====
section
/-! DEFINITION. The positions of a character on the two lines (R1, R167), and the byte layouts of chapter 12: the
CRC-16 (R193), room bus frames both ways (R194), packed text (R195), request frames both ways and reply records
(R196). -/

namespace Sys2Proof.Machine

/-! ## Checks and byte order (R193) -/

/-- One bit of the CRC-16 with polynomial 0x1021, most significant bit first (R193). -/
def crcBit (c : BitVec 16) : BitVec 16 :=
  if c.getLsbD 15 then (c <<< 1) ^^^ 0x1021#16 else c <<< 1

/-- One byte fed into the CRC-16 (R193). -/
def crcByte (c : BitVec 16) (b : Byte) : BitVec 16 :=
  crcBit (crcBit (crcBit (crcBit (crcBit (crcBit (crcBit (crcBit
    (c ^^^ (b.setWidth 16 <<< 8)))))))))

/-- The CRC-16 of a list of bytes, initial value 0xFFFF, no final inversion (R193). -/
def crc16 (bs : List Byte) : BitVec 16 := bs.foldl crcByte 0xFFFF#16

/-- A 16-bit field, high byte first (R193). -/
def word16 (w : BitVec 16) : List Byte := [w.extractLsb' 8 8, w.extractLsb' 0 8]

/-- A 24-bit field, high byte first. -/
def word24 (w : BitVec 24) : List Byte := [w.extractLsb' 16 8, w.extractLsb' 8 8, w.extractLsb' 0 8]

/-- A card id, 8 bytes, high byte first. -/
def idBytes (id : CardId) : List Byte :=
  [id.extractLsb' 56 8, id.extractLsb' 48 8, id.extractLsb' 40 8, id.extractLsb' 32 8,
   id.extractLsb' 24 8, id.extractLsb' 16 8, id.extractLsb' 8 8, id.extractLsb' 0 8]

/-- A number in one byte. -/
def num1 (n : Nat) : Byte := BitVec.ofNat 8 n

/-- A number in two bytes, high byte first. -/
def num2 (n : Nat) : List Byte := word16 (BitVec.ofNat 16 n)

/-- A number in three bytes, high byte first. -/
def num3 (n : Nat) : List Byte := word24 (BitVec.ofNat 24 n)

/-- An optional one-byte field; absent is all ones (R193). -/
def opt1 (n : Option Nat) : Byte := (n.map num1).getD 0xFF#8

/-- An optional two-byte field; absent is all ones (R193). -/
def opt2 (n : Option Nat) : List Byte := (n.map num2).getD [0xFF#8, 0xFF#8]

/-- An optional three-byte field; absent is all ones (R193). -/
def opt3 (n : Option Nat) : List Byte := (n.map num3).getD [0xFF#8, 0xFF#8, 0xFF#8]

/-- A yes-or-no byte. -/
def flag1 (b : Bool) : Byte := if b then 1#8 else 0#8

/-- Two bytes read as a 16-bit field, high byte first. -/
def join16 (h l : Byte) : BitVec 16 := h ++ l

/-- Three bytes read as a 24-bit field, high byte first. -/
def join24 (h m l : Byte) : BitVec 24 := h ++ m ++ l

/-- Eight bytes read as a card id, high byte first. -/
def joinId (a b c d e f g h : Byte) : CardId := a ++ b ++ c ++ d ++ e ++ f ++ g ++ h

/-! ## Packed text (R195) -/

/-- The base-40 symbol of a SHOW TEXT character, if the set holds it (R195). -/
def textSymbol (b : Byte) : Option Nat :=
  let n := b.toNat
  if n = 0x20 then some 1
  else if n = 0x2D then some 39
  else if n = 0x2E then some 38
  else if 0x30 ≤ n ∧ n ≤ 0x39 then some (n - 0x30 + 28)
  else if 0x41 ≤ n ∧ n ≤ 0x5A then some (n - 0x41 + 2)
  else if 0x61 ≤ n ∧ n ≤ 0x7A then some (n - 0x61 + 2)
  else none

/-- Symbols packed three to a two-byte group, the last group filled with 0 (R195). -/
def packSymbols : List Nat → List Byte
  | [] => []
  | [a] => num2 (a * 1600)
  | [a, b] => num2 (a * 1600 + b * 40)
  | a :: b :: c :: rest => num2 (a * 1600 + b * 40 + c) ++ packSymbols rest

/-- The packed characters of a TEXT (R195). -/
def packText (chars : List Byte) : List Byte := packSymbols (chars.map fun b => (textSymbol b).getD 0)

/-! ## Frames to nodes (R3, R194) -/

/-- The room-bus address of a node (R23, R45). -/
def Node.address : Node → Nat
  | .machine p => p.val + 1
  | .terminal t => t.val + 25

/-! ## Characters on the lines -/

/-- The levels of a character of the room bus: the start bit at space, the data low bit first, the mark bit, and
the stop position at mark unless the character has a framing error (R1). -/
def charTime (c : BusChar) : BusTime :=
  BitVec.ofBool (!c.framing) ++ BitVec.ofBool c.mark ++ c.data ++ 0#1

/-- The levels of a byte of the gateway line: the start bit at space, the data low bit first, and the stop position
(R167). -/
def byteTime (b : LineByte) : LineTime := BitVec.ofBool (!b.framing) ++ b.data ++ 0#1

/-- A character time with a start bit: its first position is at space (R1, R167). -/
def startsAt {n : Nat} (t : BitVec n) : Bool := !t.getLsbD 0

/-- A character time of the room bus with every position at space is a break and not a character (R1). -/
def isBreak (t : BusTime) : Bool := t == 0#11

/-- The character sampled in a character time of the room bus: with the stop position at space it has a framing
error (R1). -/
def sampleChar (t : BusTime) : BusChar :=
  { data := t.extractLsb' 1 8, mark := t.getLsbD 9, framing := !t.getLsbD 10 }

/-- The byte sampled in a character time of the gateway line (R167, R168). -/
def sampleByte (t : LineTime) : LineByte := { data := t.extractLsb' 1 8, framing := !t.getLsbD 9 }

/-- The characters sampled up to the first break, and whether a break came. The line is ignored after a break (R8),
and no character begins in a time without a start bit (R1; log entry 13). -/
def busChars : List BusTime → List BusChar × Bool
  | [] => ([], false)
  | t :: rest =>
    if !startsAt t then busChars rest
    else if isBreak t then ([], true)
    else
      let r := busChars rest
      (sampleChar t :: r.1, r.2)

/-- The bytes sampled on the gateway line; no byte begins in a time without a start bit (R167; log entry 14). -/
def lineBytes (times : List LineTime) : List LineByte := (times.filter fun t => startsAt t).map sampleByte

/-- A byte the part sends on the gateway line, its stop bit at mark (R167). -/
def sentByte (b : Byte) : LineTime := byteTime { data := b, framing := false }

/-! ## Frames to nodes -/

/-- A frame to a node: each character with its mark bit. The address character has direction 0 and mark
bit 1; the CRC covers kind, length and payload (R3, R193). -/
def busFrame (node : Node) (kind : Byte) (payload : List Byte) : List BusChar :=
  let body := kind :: num1 payload.length :: payload
  { data := num1 node.address, mark := true, framing := false }
    :: (body ++ word16 (crc16 body)).map fun b => { data := b, mark := false, framing := false }

/-- The item tag byte: bits 0 to 3, bits 4 to 7 are 0 (R194). -/
def tagByte (t : ItemTag) : Byte := t.setWidth 8

/-- The order code and the payload of an order (R194). -/
def OrderBody.bytes : OrderBody → List Byte
  | .start program options minutes => [1#8, num1 program, options.setWidth 8, num1 minutes]
  | .extend minutes => [2#8, num1 minutes]
  | .finish => [3#8]
  | .heatOn => [4#8]
  | .heatOff => [5#8]
  | .halt => [6#8]
  | .disable => [7#8]
  | .enable => [8#8]

/-- The ANSWER payload after its item tag (R194). -/
def Answer.bytes (a : Answer) : List Byte :=
  [a.reqTag, flag1 a.decline.isSome, num1 ((a.decline.map DeclineReason.code).getD 0)] ++ num3 a.amount
    ++ [num1 a.minutes, a.options.setWidth 8] ++ opt3 a.available

/-- The kind and the payload after the item tag of an outbox item (R194, R195). -/
def ItemBody.bytes : ItemBody → Byte × List Byte
  | .answer a _ => (0x03#8, a.bytes)
  | .text chars => (0x04#8, num1 chars.length :: packText chars)

/-- The ASK frame: it holds no item (R16, R194). -/
def askFrame (node : Node) : List BusChar := busFrame node 0x01#8 []

/-- The ORDER frame of an order with its tag (R194). -/
def orderFrame (p : PosIx) (body : OrderBody) (tag : ItemTag) : List BusChar :=
  busFrame (.machine p) 0x02#8 (tagByte tag :: body.bytes)

/-- The ANSWER or TEXT frame of an outbox item with its tag (R194). -/
def itemFrame (t : TermIx) (body : ItemBody) (tag : ItemTag) : List BusChar :=
  busFrame (.terminal t) body.bytes.1 (tagByte tag :: body.bytes.2)

/-! ## Replies of nodes (R6, R30, R194) -/

/-- The fields of a VALID STATE. `echo` and `outcome` act when the reply is taken; the others are stored
in the last STATE (R29, R30). -/
structure StateReport where
  last : LastState
  echo : ItemTag
  outcome : OrderOutcome
  deriving DecidableEq, Repr

/-- The fields of a CARD (section 3-2). -/
structure CardRequest where
  reqTag : Byte
  cardId : CardId
  position : Byte
  program : Byte
  options : OptionSet
  minutes : Byte
  deriving DecidableEq, Repr

/-- The fields of a VALID reply. -/
inductive ReplyFields where
  | state (r : StateReport)
  | nil (echo : ItemTag)
  | card (echo : ItemTag) (r : CardRequest)
  deriving DecidableEq, Repr

/-- The payload of a STATE; none fails the CONTENT test (R6, R30, R194). -/
def parseState (payload : List Byte) : Option StateReport :=
  match payload with
  | cls :: ms :: _program :: ph :: flags :: remaining :: fault :: echo :: outcome :: reason :: _ => do
    let cls ← MachineClass.ofCode cls
    let ms ← MachineState.ofCode ms
    let ph ← Phase.ofCode ph
    let outcome ← OrderOutcome.ofCodes outcome reason
    some
      { last :=
          { cls := cls, mstate := ms, phase := ph, doorLocked := flags.getLsbD 0,
            heaterOn := flags.getLsbD 1, heatRequest := flags.getLsbD 2,
            remaining := min remaining.toNat 254, fault := min fault.toNat 15 }
        echo := echo.setWidth 4
        outcome := outcome }
  | _ => none

/-- The payload of a CARD (R194). -/
def parseCard (payload : List Byte) : Option (ItemTag × CardRequest) :=
  match payload with
  | echo :: tag :: a :: b :: c :: d :: e :: f :: g :: h :: pos :: program :: options :: minutes :: _ =>
    some (echo.setWidth 4,
      { reqTag := tag, cardId := joinId a b c d e f g h, position := pos, program := program,
        options := options.setWidth 4, minutes := minutes })
  | _ => none

/-- The entries of the error set (R6). -/
inductive ReplyError where
  | framing | firstNotAddress | address | markInBody | length | crc | kind | content | gap | brk
  deriving DecidableEq, Repr

/-- Whether a kind is one the visited node may send (R6, R194). -/
def kindAllowed (node : Node) (kind : Byte) : Bool :=
  match node with
  | .machine _ => kind == 0x11#8
  | .terminal _ => kind == 0x12#8 || kind == 0x13#8

/-- Whether the LENGTH test passes: at most 24, and a count the kind allows (R6, R194). -/
def lengthAllowed (kind : Byte) (len : Nat) : Bool :=
  len ≤ 24 &&
    (if kind == 0x11#8 then decide (10 ≤ len)
     else if kind == 0x12#8 then decide (1 ≤ len)
     else if kind == 0x13#8 then decide (14 ≤ len)
     else true)

/-- How many characters a reply has when its length character allows it: 5 plus the payload count, once
the length character has been received and holds 0 to 24 (R5). -/
def replySize (chars : List BusChar) : Option Nat :=
  match chars[2]? with
  | some c => if c.data.toNat ≤ 24 then some (5 + c.data.toNat) else none
  | none => none

/-- The reply has reached its full character count (R5). -/
def replyIsComplete (chars : List BusChar) : Bool :=
  match replySize chars with
  | some n => n ≤ chars.length
  | none => false

/-- The fields of a complete reply by its kind; none fails the CONTENT test (R6). -/
def parseFields (kind : Byte) (payload : List Byte) : Option ReplyFields :=
  if kind == 0x11#8 then (parseState payload).map .state
  else if kind == 0x13#8 then (parseCard payload).map fun r => .card r.1 r.2
  else (payload.head?).map fun e => .nil (e.setWidth 4)

/-- The error set of a reply from a node: the characters received, cut at the full count when the reply
is complete, and whether a gap or a break ended it (R5, R6). -/
def errorSet (node : Node) (chars : List BusChar) (gap broken : Bool) : List ReplyError :=
  let complete := replyIsComplete chars
  let cs := match replySize chars with
    | some n => chars.take n
    | none => chars
  let data := cs.map (·.data)
  let body := (data.drop 1).dropLast.dropLast
  let kind := data[1]?
  let crcOk := word16 (crc16 body) == data.drop (data.length - 2)
  let err (b : Bool) (e : ReplyError) : List ReplyError := if b then [e] else []
  err (cs.any (·.framing)) .framing
    ++ err (cs.head?.any fun c => !c.mark) .firstNotAddress
    ++ err (cs.head?.any fun c => c.data != num1 (node.address + 128)) .address
    ++ err (cs.tail.any (·.mark)) .markInBody
    ++ err (match data[2]?, kind with
        | some l, some k => !lengthAllowed k l.toNat
        | _, _ => false) .length
    ++ err (complete && !crcOk) .crc
    ++ err (kind.any fun k => !kindAllowed node k) .kind
    ++ err (complete && crcOk && kind.any fun k => (parseFields k (body.drop 2)).isNone) .content
    ++ err gap .gap
    ++ err broken .brk

/-- The class of a reply that has ended: VALID with its fields when the error set is empty, else DAMAGED
(R7). -/
def classify (node : Node) (chars : List BusChar) (gap broken : Bool) : Option ReplyFields :=
  match errorSet node chars gap broken, replySize chars, (chars[1]?).map (·.data) with
  | [], some n, some kind =>
    parseFields kind ((((chars.take n).map (·.data)).drop 3).dropLast.dropLast)
  | _, _, _ => none

/-! ## Request frames (R196) -/

/-- SYNC, HOLD and GO (R168). -/
def syncByte : Byte := 0xC5#8
/-- The HOLD character (R168). -/
def holdByte : Byte := 0xF3#8
/-- The GO character (R168). -/
def goByte : Byte := 0xF1#8

/-- The type of a request (R196). -/
def Request.type : Request → Byte
  | .status => 0x01#8
  | .setConfig .. => 0x02#8
  | .setClock .. => 0x03#8
  | .loadMachine .. => 0x10#8
  | .removeMachine .. => 0x11#8
  | .service .. => 0x12#8
  | .readMachines .. => 0x13#8
  | .loadTerminal .. => 0x18#8
  | .removeTerminal .. => 0x19#8
  | .showText .. => 0x1A#8
  | .loadPrice .. => 0x20#8
  | .removePrice .. => 0x21#8
  | .loadBands .. => 0x22#8
  | .addCard .. => 0x30#8
  | .creditCard .. => 0x31#8
  | .debitCard .. => 0x32#8
  | .setCard .. => 0x33#8
  | .blockCard .. => 0x34#8
  | .unblockCard .. => 0x35#8
  | .removeCard .. => 0x36#8
  | .readCard .. => 0x37#8
  | .setBudget .. => 0x40#8
  | .releaseHeat .. => 0x41#8
  | .loadFaultClass .. => 0x50#8
  | .clearFault .. => 0x51#8
  | .readFaults => 0x52#8
  | .readSettlements => 0x60#8
  | .releaseThrough .. => 0x61#8
  | .forceEnd .. => 0x70#8
  | .restart => 0x7F#8
  | .badFrame t => t

/-- The payload of a request (R196); a `badFrame` has none of its own. -/
def Request.payload : Request → List Byte
  | .setConfig mask rate jam lost start pause fin slice settle attn =>
    word16 mask ++ word16 rate ++ word16 jam ++ [lost, start, pause, fin, slice, settle, attn]
  | .setClock minute second => word16 minute ++ [second]
  | .loadMachine addr cls heater motor lo hi dflt => [addr, cls, heater, motor, lo, hi, dflt]
  | .removeMachine addr => [addr]
  | .service addr value => [addr, value]
  | .readMachines mode => [mode]
  | .loadTerminal addr => [addr]
  | .removeTerminal addr => [addr]
  | .showText addr text => addr :: num1 text.length :: text
  | .loadPrice cls program base ph pc n pairs =>
    [cls, program] ++ word16 base ++ word16 ph ++ word16 pc ++ [n, num1 pairs.length]
      ++ pairs.flatMap fun x => x.1 :: word16 x.2
  | .removePrice cls program => [cls, program]
  | .loadBands bands => num1 bands.length :: bands.flatMap fun b => word16 b.1 ++ [b.2.1, b.2.2]
  | .addCard id cls balance discount limit =>
    idBytes id ++ [cls] ++ word24 balance ++ [discount] ++ word16 limit
  | .creditCard id amount => idBytes id ++ word24 amount
  | .debitCard id amount => idBytes id ++ word24 amount
  | .setCard id cls discount limit => idBytes id ++ [cls, discount] ++ word16 limit
  | .blockCard id => idBytes id
  | .unblockCard id => idBytes id
  | .removeCard id => idBytes id
  | .readCard id => idBytes id
  | .setBudget value => [value]
  | .releaseHeat addr => [addr]
  | .loadFaultClass code severity policy auto => [code, severity, policy, auto]
  | .clearFault addr => [addr]
  | .releaseThrough k => word16 k
  | .forceEnd addr policy => [addr, policy]
  | .status => []
  | .restart => []
  | .readFaults => []
  | .readSettlements => []
  | .badFrame _ => []

/-- The option and surcharge pairs of LOAD PRICE (R196). -/
def parsePairs : List Byte → List (Byte × BitVec 16)
  | o :: h :: l :: rest => (o, join16 h l) :: parsePairs rest
  | _ => []

/-- The bands of LOAD BANDS (R196). -/
def parseBands : List Byte → List (BitVec 16 × Byte × Byte)
  | h :: l :: m :: c :: rest => (join16 h l, m, c) :: parseBands rest
  | _ => []

/-- A payload that is one card id (R196). -/
def parseId (f : CardId → Request) (bad : Request) : List Byte → Request
  | [a, b, c, d, e, g, h, i] => f (joinId a b c d e g h i)
  | _ => bad

/-- A payload that is a card id and an amount (R196). -/
def parseIdAmount (f : CardId → BitVec 24 → Request) (bad : Request) : List Byte → Request
  | [a, b, c, d, e, g, h, i, x, y, z] => f (joinId a b c d e g h i) (join24 x y z)
  | _ => bad

/-- A payload of one byte (R196). -/
def parseByte (f : Byte → Request) (bad : Request) : List Byte → Request
  | [a] => f a
  | _ => bad

/-- A payload of two bytes (R196). -/
def parseTwo (f : Byte → Byte → Request) (bad : Request) : List Byte → Request
  | [a, b] => f a b
  | _ => bad

/-- A payload of no bytes (R196). -/
def parseNone (r bad : Request) : List Byte → Request
  | [] => r
  | _ => bad

/-- The payload of SET CONFIG (R196). -/
def parseSetConfig (bad : Request) : List Byte → Request
  | [m1, m0, r1, r0, j1, j0, lost, start, pause, fin, slice, settle, attn] =>
    .setConfig (join16 m1 m0) (join16 r1 r0) (join16 j1 j0) lost start pause fin slice settle attn
  | _ => bad

/-- The payload of SET CLOCK (R196). -/
def parseSetClock (bad : Request) : List Byte → Request
  | [h, l, sec] => .setClock (join16 h l) sec
  | _ => bad

/-- The payload of LOAD MACHINE (R196). -/
def parseLoadMachine (bad : Request) : List Byte → Request
  | [addr, cls, heater, motor, lo, hi, dflt] => .loadMachine addr cls heater motor lo hi dflt
  | _ => bad

/-- The payload of SHOW TEXT, sized by its count (R196). -/
def parseShowText (bad : Request) : List Byte → Request
  | addr :: count :: text => if text.length = count.toNat then .showText addr text else bad
  | _ => bad

/-- The payload of LOAD PRICE, sized by its pair count (R196). -/
def parseLoadPrice (bad : Request) : List Byte → Request
  | cls :: program :: b1 :: b0 :: h1 :: h0 :: c1 :: c0 :: n :: count :: rest =>
    if rest.length = 3 * count.toNat then
      .loadPrice cls program (join16 b1 b0) (join16 h1 h0) (join16 c1 c0) n (parsePairs rest)
    else bad
  | _ => bad

/-- The payload of LOAD BANDS, sized by its band count (R196). -/
def parseLoadBands (bad : Request) : List Byte → Request
  | count :: rest => if rest.length = 4 * count.toNat then .loadBands (parseBands rest) else bad
  | _ => bad

/-- The payload of ADD CARD (R196). -/
def parseAddCard (bad : Request) : List Byte → Request
  | [a, b, c, d, e, g, h, i, cls, x, y, z, discount, l1, l0] =>
    .addCard (joinId a b c d e g h i) cls (join24 x y z) discount (join16 l1 l0)
  | _ => bad

/-- The payload of SET CARD (R196). -/
def parseSetCard (bad : Request) : List Byte → Request
  | [a, b, c, d, e, g, h, i, cls, discount, l1, l0] =>
    .setCard (joinId a b c d e g h i) cls discount (join16 l1 l0)
  | _ => bad

/-- The payload of LOAD FAULT CLASS (R196). -/
def parseLoadFaultClass (bad : Request) : List Byte → Request
  | [code, severity, policy, auto] => .loadFaultClass code severity policy auto
  | _ => bad

/-- The payload of RELEASE THROUGH (R196). -/
def parseReleaseThrough (bad : Request) : List Byte → Request
  | [h, l] => .releaseThrough (join16 h l)
  | _ => bad

/-- The request of a received frame: an unknown type, or a length the type does not allow, is a
`badFrame` (R172, R196). -/
def parseRequest (type : Byte) (pl : List Byte) : Request :=
  let bad := Request.badFrame type
  if type = 0x01#8 then parseNone .status bad pl
  else if type = 0x02#8 then parseSetConfig bad pl
  else if type = 0x03#8 then parseSetClock bad pl
  else if type = 0x10#8 then parseLoadMachine bad pl
  else if type = 0x11#8 then parseByte .removeMachine bad pl
  else if type = 0x12#8 then parseTwo .service bad pl
  else if type = 0x13#8 then parseByte .readMachines bad pl
  else if type = 0x18#8 then parseByte .loadTerminal bad pl
  else if type = 0x19#8 then parseByte .removeTerminal bad pl
  else if type = 0x1A#8 then parseShowText bad pl
  else if type = 0x20#8 then parseLoadPrice bad pl
  else if type = 0x21#8 then parseTwo .removePrice bad pl
  else if type = 0x22#8 then parseLoadBands bad pl
  else if type = 0x30#8 then parseAddCard bad pl
  else if type = 0x31#8 then parseIdAmount .creditCard bad pl
  else if type = 0x32#8 then parseIdAmount .debitCard bad pl
  else if type = 0x33#8 then parseSetCard bad pl
  else if type = 0x34#8 then parseId .blockCard bad pl
  else if type = 0x35#8 then parseId .unblockCard bad pl
  else if type = 0x36#8 then parseId .removeCard bad pl
  else if type = 0x37#8 then parseId .readCard bad pl
  else if type = 0x40#8 then parseByte .setBudget bad pl
  else if type = 0x41#8 then parseByte .releaseHeat bad pl
  else if type = 0x50#8 then parseLoadFaultClass bad pl
  else if type = 0x51#8 then parseByte .clearFault bad pl
  else if type = 0x52#8 then parseNone .readFaults bad pl
  else if type = 0x60#8 then parseNone .readSettlements bad pl
  else if type = 0x61#8 then parseReleaseThrough bad pl
  else if type = 0x70#8 then parseTwo .forceEnd bad pl
  else if type = 0x7F#8 then parseNone .restart bad pl
  else bad

/-- The bytes after SYNC of a request frame: length, type, tag, payload and CRC (R167, R196). -/
def requestBytes (type tag : Byte) (payload : List Byte) : List Byte :=
  let body := num1 (payload.length + 2) :: type :: tag :: payload
  body ++ word16 (crc16 body)

/-- A reply frame on the wire: SYNC, length, type, tag, status, payload and CRC (R167, R196). -/
def ReplyFrame.wire (f : ReplyFrame) : List Byte :=
  let body := num1 (f.payload.length + 3) :: f.type :: f.tag :: num1 f.status.code :: f.payload
  syncByte :: (body ++ word16 (crc16 body))

/-! ## Records of replies (R196) -/

/-- The nine configuration fields, 11 bytes (R196). DESIGN CHOICE: bit 7 of the attention mask is sent as 0 (log
entry 34). -/
def RoomConfig.bytes (c : RoomConfig) : List Byte :=
  num2 c.busRate.hundreds ++ num2 c.jamLimit
    ++ [num1 c.lostLimit, num1 c.startLimit, num1 c.pauseLimit, num1 c.doneLimit, num1 c.heatSlice,
        num1 c.settleTime, c.attnMask.setWidth 8]

/-- The present causes byte: bit `n - 1` for priority `n` (R196). DESIGN CHOICE: bit 7 is sent as 0 (log entry
34). -/
def State.causesByte (s : State) : Byte :=
  num1 ((Cause.all.map fun c => if s.causePresent c then 2 ^ (c.priority - 1) else 0).sum)

/-- The settle time left in seconds, 0 unless SETTLING (R196). -/
def Sag.left : Sag → Nat
  | .settling n => n
  | .normal | .asserted => 0

/-- The status block, 13 bytes (R178, R196). -/
def State.statusBlock (s : State) : List Byte :=
  [ num1 ((s.highestCause.map Cause.priority).getD 0), s.causesByte, num1 s.link.cause.code,
    flag1 s.clock.valid, num1 s.heat.sag.code, num1 s.heat.sag.left, flag1 s.bus.jammed,
    num1 s.ret.budget, opt1 s.ret.pendingBudget, num1 s.committed, num1 s.openSessions,
    num1 s.ret.settlements.length, num1 s.ret.faults.length ]

/-- A two-bit yes, no or absent field: 0 no, 1 yes, 3 absent (R196). -/
def tri (b : Option Bool) : Nat :=
  match b with
  | some false => 0
  | some true => 1
  | none => 3

/-- One machine entry, 8 bytes (R34, R196). DESIGN CHOICE: bit 7 of the state byte and of the display byte is sent
as 0 (log entry 34). -/
def State.machineEntry (s : State) (p : PosIx) : List Byte :=
  let r := s.record p
  let v := s.vol p
  let present := r.config.isSome
  [ num1 (p.val + 1),
    num1 ((s.availability p).code + 4 * (if present then v.bus.presence.code else 3)
      + 16 * ((r.config.map (·.cls.code)).getD 3) + 64 * (if r.oos then 1 else 0)),
    opt1 (r.fault.map (·.code)),
    num1 (((s.session p).map (·.state.code)).getD 15 + 16 * v.grant.code),
    opt1 (v.lastState.map (·.mstate.code)),
    opt1 (v.lastState.map (·.phase.code)),
    num1 (tri (v.lastState.map (·.doorLocked)) + 4 * tri (v.lastState.map (·.heaterOn))
      + 16 * v.orders.length),
    opt1 (v.lastState.map (·.remaining)) ]

/-- The card block, 25 bytes (R76, R196). -/
def Card.bytes (c : Card) : List Byte :=
  idBytes c.id ++ [num1 c.cls.code, num1 c.state.code] ++ num3 c.balance ++ num3 c.held
    ++ num3 (c.balance - c.held) ++ [num1 c.discount] ++ opt2 c.limit ++ num3 c.spent

/-- A fault record, 10 bytes (R155, R196). -/
def FaultRecord.bytes (r : FaultRecord) : List Byte :=
  num2 r.number ++ [num1 r.code, opt1 (r.position.map fun p => p.val + 1), num1 r.severity.code]
    ++ opt2 r.minute ++ opt2 r.settlement ++ [num1 (detailCode r.detail)]

/-- A settlement record, 29 bytes (R159, R196). -/
def Settlement.bytes (r : Settlement) : List Byte :=
  num2 r.number ++ [num1 (r.position.val + 1), num1 r.cclass.code, num1 r.program] ++ idBytes r.cardId
    ++ opt2 r.startMinute
    ++ [num1 r.m, num1 r.d, num1 r.purchased, num1 r.heated, num1 r.cool, num1 r.elapsed]
    ++ num3 r.hold ++ num3 r.charged ++ [num1 r.reason.code, opt1 r.faultCode]

end Sys2Proof.Machine
end

