-- ==== Sys2Proof/Machine/Journal.lean ====
section
/-! DEFINITION. The money journal: a journalled change in its three steps (R66), the application of each part of
an entry, used both at the change and at the roll-forward (R186), and the settlement queue's append (R162). -/

namespace Sys2Proof.Machine

/-- Writes a card record under its id in a table that is kept rising by id: in place of the record with
that id, or added (R60, R186; log entry 24). -/
def putCard (c : Card) : List Card → List Card
  | [] => [c]
  | x :: xs =>
    if x.id = c.id then c :: xs
    else if c.id.toNat < x.id.toNat then c :: x :: xs
    else x :: putCard c xs

/-- Removes the record with an id, if one is held (R186). -/
def dropCard (id : CardId) (cs : List Card) : List Card := cs.filter fun c => c.id != id

/-- The card part of an entry applied (R186, step 1). -/
def applyCard (part : CardPart) (r : Retained) : Retained :=
  match part with
  | .absent => r
  | .record c => { r with cards := putCard c r.cards }
  | .removal id => { r with cards := dropCard id r.cards }
  | .rollover => { r with cards := r.cards.map fun c => { c with spent := 0 } }

/-- The settlement part of an entry applied: nothing when the newest record carries its number, else the
record is appended and the next number becomes one above it (R162, R186, step 2). -/
def applySettlement (part : Option Settlement) (r : Retained) : Retained :=
  match part with
  | none => r
  | some rec1 =>
    if (r.settlements.getLast?).any (fun x => x.number == rec1.number) then r
    else
      { r with
        settlements := r.settlements ++ [rec1]
        nextSettlement := nextNumber Config.maxSettlementNumber rec1.number }

/-- The session part of an entry applied (R186, step 3). -/
def applySession (part : SessionPart) (r : Retained) : Retained :=
  match part with
  | .absent => r
  | .record p ses => { r with sessions := r.sessions.set p.val (some ses) }
  | .removal p => { r with sessions := r.sessions.set p.val none }

/-- All parts of an entry applied in the order of R186. -/
def applyEntry (e : JournalEntry) (r : Retained) : Retained :=
  applySession e.session (applySettlement e.settlement (applyCard e.card r))

/-- A journalled change (R66): the entry is written, its parts are applied in the order of R186, and the
journal is set to EMPTY; each is a retained write of its own (R183). -/
def journalled (e : JournalEntry) (s : State) : State :=
  let s := s.write fun r => { r with journal := some e }
  let s := s.write (applyCard e.card)
  let s := s.write (applySettlement e.settlement)
  let s := s.write (applySession e.session)
  s.write fun r => { r with journal := none }

/-- The roll-forward of a start (R186): a WRITTEN entry is applied whole and the journal is set to EMPTY. -/
def rollForward (s : State) : State :=
  match s.ret.journal with
  | none => s
  | some e =>
    let s := s.write (applyCard e.card)
    let s := s.write (applySettlement e.settlement)
    let s := s.write (applySession e.session)
    s.write fun r => { r with journal := none }

end Sys2Proof.Machine
end

