-- ==== Sys2Proof/Machine/Tariff.lean ====
section
/-! DEFINITION. The tariff unit (chapter 5): the room clock and day rollover, the price and band tables, and the
charge arithmetic. -/

namespace Sys2Proof.Machine

/-! ## The room clock -/

/-- The day number of a minute of the week (R78). -/
def dayOf (minute : Nat) : Nat := minute / Config.dayMinutes

/-- One advance of the clock (R78). -/
def Clock.advance (c : Clock) : Clock :=
  if c.second + 1 ≤ 59 then { c with second := c.second + 1 }
  else { c with
    second := 0
    minute := if c.minute + 1 < Config.weekMinutes then c.minute + 1 else 0 }

/-- Day rollover: the spent today of every record becomes 0 through one journal entry (R65, R66). -/
def rollover (s : State) : State :=
  journalled { card := .rollover, settlement := none, session := .absent } s

/-- The clock advances by one second; a valid clock that enters another day signals rollover (R78, R80). -/
def advanceClock (s : State) : State :=
  let c := s.clock.advance
  let day := dayOf s.clock.minute
  let s := { s with clock := c }
  if c.valid && dayOf c.minute != day then rollover s else s

/-! ## Bands -/

/-- A reading of the band table (R86): multiplier, closed flag and the clock's minute. -/
structure BandReading where
  m : Nat
  closed : Bool
  minute : Option Nat
  deriving DecidableEq, Repr

/-- The later of two bands by start minute. -/
def laterBand (best : Option Band) (b : Band) : Option Band :=
  match best with
  | none => some b
  | some x => if x.start ≤ b.start then some b else some x

/-- The band in force for a minute: the band with the greatest start not above it, else the last band of
the table (R86). -/
def bandInForce (bands : List Band) (minute : Nat) : Option Band :=
  match (bands.filter fun b => b.start ≤ minute).foldl laterBand none with
  | some b => some b
  | none => bands.getLast?

/-- The reading for the clock as it stands (R81, R86). -/
def State.bandReading (s : State) : BandReading :=
  match s.minuteNow with
  | none => { m := 100, closed := false, minute := none }
  | some minute =>
    match bandInForce s.ret.bands minute with
    | none => { m := 100, closed := false, minute := some minute }
    | some b => { m := b.multiplier, closed := b.closed, minute := some minute }

/-! ## Prices -/

/-- Whether an entry has a key (R82). -/
def PriceEntry.hasKey (e : PriceEntry) (cls : MachineClass) (program : Nat) : Bool :=
  e.cls == cls && e.program == program

/-- The entry with a key, if the table holds one (R82, R84). -/
def findPrice (cls : MachineClass) (program : Nat) (es : List PriceEntry) : Option PriceEntry :=
  es.find? fun e => e.hasKey cls program

/-- The key of an entry as a number: the table is kept rising by it (log entry 24). -/
def PriceEntry.rank (e : PriceEntry) : Nat := e.cls.code * 256 + e.program

/-- Adds an entry, or replaces the entry with the same key whole (R83). -/
def putPrice (e : PriceEntry) : List PriceEntry → List PriceEntry
  | [] => [e]
  | x :: xs =>
    if x.hasKey e.cls e.program then e :: xs
    else if e.rank < x.rank then e :: x :: xs
    else x :: putPrice e xs

/-- The options of a requested set that an entry's surcharge list offers (R89). -/
def optionsTaken (e : PriceEntry) (asked : OptionSet) : OptionSet :=
  asked &&& e.surcharges.foldl (fun acc x => acc ||| (1#4 <<< x.1.bit)) 0#4

/-- The sum of the surcharges of the options taken (R89); frozen as 0 for a DRYER entry. -/
def surchargeSum (e : PriceEntry) (taken : OptionSet) : Nat :=
  match e.cls with
  | .dryer => 0
  | .washer => (e.surcharges.map fun x => if taken.getLsbD x.1.bit then x.2 else 0).sum

/-! ## Charge arithmetic -/

/-- A gross amount scaled by the multiplier, rounded half up (R90, R92). -/
def scaled (m gross : Nat) : Nat := (gross * m + 50) / 100

/-- An amount less the discount, which is rounded down (R90, R92). -/
def discounted (d amount : Nat) : Nat := amount - amount * d / 100

/-- The washer price net (R90). -/
def washerPrice (base surcharge m d : Nat) : Nat := discounted d (scaled m base + surcharge)

/-- The washer partial charge (R91). -/
def washerPartial (net elapsed n : Nat) : Nat := net * min elapsed n / n

/-- The dryer pricing function f (R92). -/
def dryerPrice (m d gross : Nat) : Nat := discounted d (scaled m gross)

/-- The dryer hold H(P) (R93). -/
def dryerHold (m d ph purchased : Nat) : Nat := dryerPrice m d (purchased * ph)

/-- The dryer charge C(h, c) (R94). -/
def dryerCharge (m d ph pc heated cool : Nat) : Nat := dryerPrice m d (heated * ph + cool * pc)

/-- The purchase minutes of a dryer request (R93). -/
def purchaseMinutes (l : PurchaseLimits) (asked : Nat) : Nat :=
  if asked = 0 then l.dflt
  else if asked < l.minimum then l.minimum
  else if l.maximum < asked then l.maximum
  else asked

/-- The minutes a top-up adds (R95). -/
def topupMinutes (l : PurchaseLimits) (purchased asked : Nat) : Nat :=
  min (if asked = 0 then l.dflt else asked) (l.maximum - purchased)

/-- The washer price of a session from its frozen terms; 0 for a SERVICE session (R90, R96). -/
def Session.net (ses : Session) : Nat :=
  if ses.cclass = .service then 0 else washerPrice ses.base ses.surcharge ses.m ses.d

/-- The dryer hold of a session for some minutes; 0 for a SERVICE session (R93, R96). -/
def Session.holdFor (ses : Session) (purchased : Nat) : Nat :=
  if ses.cclass = .service then 0 else dryerHold ses.m ses.d ses.ph purchased

/-- The charge of a session under the UNUSED rule: the partial charge for a washer, C(h, c) for a dryer
(R118). -/
def Session.unusedCharge (ses : Session) : Nat :=
  match ses.mclass with
  | .washer => washerPartial ses.net ses.elapsed ses.n
  | .dryer =>
    if ses.cclass = .service then 0
    else dryerCharge ses.m ses.d ses.ph ses.pc ses.heated ses.cool

/-- The charge under the policy NONE: net for a washer, H(P) for a dryer (R118). -/
def Session.wholeCharge (ses : Session) : Nat :=
  match ses.mclass with
  | .washer => ses.net
  | .dryer => ses.holdFor ses.purchased

/-- The charge of a close by its end reason and, for FAULT and OPERATOR, its policy (R118). A washer is
never closed ABANDONED or DONE_TIMEOUT (log entry 21). -/
def Session.charge (ses : Session) (reason : EndReason) (policy : Policy) : Nat :=
  match reason with
  | .completed =>
    match ses.mclass with
    | .washer => ses.net
    | .dryer => ses.unusedCharge
  | .fault | .operator =>
    match policy with
    | .full => 0
    | .unused => ses.unusedCharge
    | .none => ses.wholeCharge
  | .abandoned | .doneTimeout | .cycleLost | .powerLoss | .restarted => ses.unusedCharge

end Sys2Proof.Machine
end

