-- ==== Sys2Proof/Machine/Terminals.lean ====
section
/-! DEFINITION. The terminal table's outbox and answers (sections 3-2 to 3-4): queuing an ANSWER (R52, R54,
R55), a TEXT (R57), delivery (R53, R56), and the loss of a terminal (R48). -/

namespace Sys2Proof.Machine

/-- Whether an item is a TEXT. -/
def Item.isText (i : Item) : Bool :=
  match i.body with
  | .text _ => true
  | .answer .. => false

/-- Whether an item is a TERMINAL_BUSY answer (R50). -/
def Item.isBusy (i : Item) : Bool :=
  match i.body with
  | .answer _ busy => busy
  | .text _ => false

/-- Whether an item is an answer to the request with a tag, and no TERMINAL_BUSY answer (R52). -/
def Item.answers (tag : Byte) (i : Item) : Bool :=
  match i.body with
  | .answer a busy => !busy && a.reqTag == tag
  | .text _ => false

/-- Whether an item is the TERMINAL_BUSY answer with a request tag (R49). -/
def Item.busyFor (tag : Byte) (i : Item) : Bool :=
  match i.body with
  | .answer a busy => busy && a.reqTag == tag
  | .text _ => false

/-- An undelivered TEXT (R54). -/
def Item.waitingText (i : Item) : Bool := i.isText && i.tag.isNone

/-- Puts an ANSWER in its place: behind the item in delivery and every ANSWER, ahead of every undelivered
TEXT (R54); in a full outbox the oldest undelivered TEXT leaves first (R55). A full outbox of the part always
holds such a TEXT (R55); on any other full outbox nothing is placed (log entry 22). -/
def placeAnswer (i : Item) (box : List Item) : List Item :=
  let box := if box.length < Config.outboxCapacity then box else box.eraseP Item.waitingText
  if box.length < Config.outboxCapacity then
    box.takeWhile (fun x => !x.waitingText) ++ i :: box.dropWhile (fun x => !x.waitingText)
  else box

/-- Queues an ANSWER in a terminal's outbox (R52). -/
def queueAnswer (t : TermIx) (a : Answer) (busy : Bool) (s : State) : State :=
  s.setTerm t fun v => { v with outbox := placeAnswer { body := .answer a busy, tag := none } v.outbox }

/-- A DECLINE with its reason; the available balance is the card's when it is queued, absent when the
card is unknown (R58). -/
def declineAnswer (tag : Byte) (reason : DeclineReason) (available : Option Nat) : Answer :=
  { reqTag := tag, decline := some reason, amount := 0, minutes := 0, options := 0#4,
    available := available }

/-- An ACCEPT of a start or a top-up (R58). -/
def acceptAnswer (tag : Byte) (amount minutes : Nat) (options : OptionSet) (available : Option Nat) :
    Answer :=
  { reqTag := tag, decline := none, amount := amount, minutes := minutes, options := options,
    available := available }

/-- The terminal admits an ANSWER of the session table: it is configured, its pending request has the
tag, and no answer for that request stands in the outbox (R52). -/
def State.admitsAnswer (s : State) (t : TermIx) (tag : Byte) : Bool :=
  s.termConfigured t && (s.terminal t).request == some tag
    && !((s.terminal t).outbox.any (Item.answers tag))

/-- An ANSWER sent by the session table: queued when the terminal admits it, else discarded (R52). -/
def sendAnswer (t : TermIx) (a : Answer) (s : State) : State :=
  if s.admitsAnswer t a.reqTag then queueAnswer t a false s else s

/-- A DECLINE sent by the session table for a card (R58, R52). -/
def sendDecline (t : TermIx) (tag : Byte) (reason : DeclineReason) (id : CardId) (s : State) : State :=
  sendAnswer t (declineAnswer tag reason (s.available id)) s

/-- A terminal becomes LOST: its outbox is emptied and a pending request is dropped (R48). -/
def terminalLost (t : TermIx) (s : State) : State :=
  s.setTerm t fun v =>
    { v with
      outbox := []
      request := none
      lastTag := if v.request.isSome then v.request else v.lastTag }

/-- The head item of the outbox is confirmed and leaves; the ANSWER to the pending request ends it (R53,
R56). -/
def confirmItem (t : TermIx) (s : State) : State :=
  s.setTerm t fun v =>
    match v.outbox with
    | [] => v
    | i :: rest =>
      if v.request.any (fun tag => i.answers tag) then
        { v with outbox := rest, request := none, lastTag := v.request }
      else { v with outbox := rest }

end Sys2Proof.Machine
end

