-- ==== Sys2Proof/Machine/Sessions.lean ====
section
/-! DEFINITION. The session table (chapter 6) with what it moves together with: hold operations through the
journal (R67 to R70), cancellation (R102), failing extensions (R114), withdrawal of grants (R129) and the
asking of HALT and HEAT_OFF with its reports to owners (R35), closing (R119), authorization (R99, R100), the
start handshake (R103 to R105), unpaid runs (R116) and the meter (R107). -/

namespace Sys2Proof.Machine

/-! ## Hold operations -/

/-- The card part of a hold operation: the card's record after the change, or no card part when the card
is unknown (R66, R70). -/
def cardPart (id : CardId) (f : Card → Card) (s : State) : CardPart :=
  match s.card id with
  | none => .absent
  | some c => .record (f c)

/-- Place hold: the held amount rises, with the session change of the entry (R67). -/
def placeHold (id : CardId) (amount : Nat) (part : SessionPart) (s : State) : State :=
  journalled
    { card := cardPart id (fun c => { c with held := c.held + amount }) s
      settlement := none
      session := part } s

/-- Lower hold: the held amount falls, with the session change of the entry (R68). -/
def lowerHold (id : CardId) (amount : Nat) (part : SessionPart) (s : State) : State :=
  journalled
    { card := cardPart id (fun c => { c with held := c.held - amount }) s
      settlement := none
      session := part } s

/-- A card after a capture: the charge leaves the balance, the hold is released, and spent today rises
and stops at 999,999 (R64, R69). -/
def Card.captured (c : Card) (hold charge : Nat) : Card :=
  { c with
    balance := c.balance - charge
    held := c.held - hold
    spent := min (c.spent + charge) Config.maxSpent }

/-- Capture: card, settlement record and removal of the session through one entry (R69). -/
def capture (p : PosIx) (ses : Session) (charge : Nat) (rec1 : Settlement) (s : State) : State :=
  journalled
    { card := cardPart ses.cardId (fun c => c.captured ses.hold charge) s
      settlement := some rec1
      session := .removal p } s

/-! ## Cancellation -/

/-- A STARTING session is cancelled with a reason (R102). -/
def cancelSession (p : PosIx) (reason : DeclineReason) (s : State) : State :=
  match s.session p with
  | none => s
  | some ses =>
    let s := letGo OrderBody.isStart p s
    let s := lowerHold ses.cardId ses.hold (.removal p) s
    let s := committedFell s
    let s := sendDecline ses.term ses.reqTag reason ses.cardId s
    s.markChanged p

/-- A STARTING session is cancelled; any other session is left as it is (R103, R106). -/
def cancelIfStarting (p : PosIx) (reason : DeclineReason) (s : State) : State :=
  if s.sessionIs p .starting then cancelSession p reason s else s

/-! ## Ending and failing extensions

Both withdraw the grant, and a withdrawal may reach an extension again through a full order queue (R40), so
they take the withdrawal as an argument. -/

/-- A dryer session goes to ENDING: its meter and pause limit stop, END is asked for, the done limit
begins, and the grant is withdrawn (R110). -/
def goEndingWith (wd : PosIx → State → State) (p : PosIx) (s : State) : State :=
  let s := s.setSession p fun o => o.map fun ses =>
    { ses with
      state := .ending
      holding := false
      pauseLimit := none
      doneLimit := some (s.ret.config.doneLimit * 60) }
  let s := if s.queueHasRoom p then appendOrder p (newOrder .finish) s else s
  let s := wd p s
  s.markChanged p

/-- An open extension fails: its EXTEND is let go, its added hold is lowered, its terminal gets a DECLINE,
and a holding meter sends the session to ENDING (R114). -/
def extensionFailWith (wd : PosIx → State → State) (p : PosIx) (reason : DeclineReason) (s : State) :
    State :=
  match s.session p with
  | none => s
  | some ses =>
    match ses.ext with
    | none => s
    | some e =>
      let s := letGo OrderBody.isExtend p s
      let s := lowerHold ses.cardId e.hold
        (.record p { ses with ext := none, hold := ses.hold - e.hold }) s
      let s := sendDecline e.term e.reqTag reason ses.cardId s
      if ses.holding then goEndingWith wd p s else s

/-- The owner of a removed order is told that it was cancelled (R32, R35): the session of a START (R103),
the extension of an EXTEND (R114), the heat budget unit for HEAT_ON (R128). -/
def reportCancelled (wd : PosIx → State → State) (p : PosIx) (o : Order) (s : State) : State :=
  match o.body with
  | .start .. => if o.owned then cancelIfStarting p .machineNotReady s else s
  | .extend _ => if o.owned then extensionFailWith wd p .machineNotReady s else s
  | .heatOn => heatOnCancelled p s
  | .finish | .heatOff | .halt | .disable | .enable => s

/-- What follows the removal of an order: a displaced display order is marked owed (R40), and any other order
is reported to its owner (R35), whereupon an owed display order is tried (R27). DESIGN CHOICE: the report comes
before the attempt (log entry 19). -/
def afterRemoval (wd : PosIx → State → State) (p : PosIx) (removed : Option Order) (s : State) : State :=
  match removed with
  | none => s
  | some o =>
    if o.body.display then s.setVol p fun v => { v with owed := true }
    else serveOwed p (reportCancelled wd p o s)

/-- One step with a HALT or HEAT_OFF is made: the queue takes its new form, and what follows a removal is done. -/
def makeStep (wd : PosIx → State → State) (p : PosIx) (n : UrgentStep) (s : State) : State :=
  afterRemoval wd p n.removed (s.setVol p fun v => { v with orders := n.orders })

/-- A HALT or HEAT_OFF is asked for: its steps are made one after the other, each on the queue as the report of
the one before it left it (R35, R37, R38, R40; DEDUCED, log entry 35). The bound on the steps is log entry 32. -/
def askUrgentFor (wd : PosIx → State → State) (u : Urgent) (p : PosIx) : Nat → State → State
  | 0, s => makeStep wd p (u.placeAtOnce (s.vol p).orders) s
  | k + 1, s =>
    let n := u.step (s.vol p).orders
    if n.finished then makeStep wd p n s else askUrgentFor wd u p k (makeStep wd p n s)

/-- A HALT or HEAT_OFF is asked of the position table. -/
def askUrgent (wd : PosIx → State → State) (u : Urgent) (p : PosIx) (s : State) : State :=
  askUrgentFor wd u p (3 * Config.orderCapacity) s

/-- A withdrawal takes a position's heat away (R129). The HEAT_OFF of a withdrawal finds the grant already
RELEASING, so an extension that its room-making fails has nothing further to withdraw. -/
def withdraw (p : PosIx) (s : State) : State :=
  match (s.vol p).grant with
  | .none | .releasing => s
  | .queued => evaluate (endGrant p s)
  | .granted => askUrgent (fun _ s => s) .heatOff p (startRelease p s)

/-- HEAT_OFF is asked of the position table (R38). -/
def askHeatOff (p : PosIx) (s : State) : State := askUrgent withdraw .heatOff p s

/-- HALT is asked of the position table (R37). -/
def askHalt (p : PosIx) (s : State) : State := askUrgent withdraw .halt p s

/-- A dryer session goes to ENDING (R110). -/
def goEnding (p : PosIx) (s : State) : State := goEndingWith withdraw p s

/-- An open extension fails (R114). -/
def extensionFail (p : PosIx) (reason : DeclineReason) (s : State) : State :=
  extensionFailWith withdraw p reason s

/-! ## Closing -/

/-- How a session closes: the end reason, for FAULT and OPERATOR the refund policy, for FAULT the code and
whether its severity is SAFETY (R118, R119). -/
structure Ending where
  reason : EndReason
  policy : Policy
  code : Option Nat
  safety : Bool
  deriving DecidableEq, Repr

/-- An end reason that needs no policy and no code. -/
def Ending.plain (reason : EndReason) : Ending :=
  { reason := reason, policy := .unused, code := none, safety := false }

/-- The settlement record of a close (R119 step 3, R160). -/
def Session.settlement (ses : Session) (p : PosIx) (e : Ending) (number : Nat) : Settlement :=
  { number := number, position := p, cclass := ses.cclass, program := ses.program, cardId := ses.cardId,
    startMinute := ses.startMinute, m := ses.m, d := ses.d, purchased := ses.purchased,
    heated := ses.heated, cool := ses.cool, elapsed := ses.elapsed, hold := ses.hold,
    charged := ses.charge e.reason e.policy, reason := e.reason, faultCode := e.code }

/-- Whether a close sets the wind-down mark (R119 step 8). -/
def Ending.windsDown (e : Ending) : Bool :=
  match e.reason with
  | .abandoned | .operator => true
  | .fault => e.safety
  | .completed | .doneTimeout | .cycleLost | .powerLoss | .restarted => false

/-- A close, in the steps of R119. Its settlement number is the next settlement number before it. -/
def closeSession (p : PosIx) (e : Ending) (s : State) : State :=
  match s.session p with
  | none => s
  | some ses =>
    let s := letGo OrderBody.isExtend p s
    let s := capture p ses (ses.charge e.reason e.policy) (ses.settlement p e s.ret.nextSettlement) s
    let s := committedFell s
    let s := withdraw p s
    let s := match ses.ext with
      | none => s
      | some x => sendDecline x.term x.reqTag .machineFault ses.cardId s
    let s := s.markChanged p
    if e.windsDown then s.setVol p fun v => { v with windDown := true } else s

/-! ## Authorization -/

/-- What a request that passes its checks asks for: a new session, or a top-up with its minutes added and
hold increment (R99, R100). -/
inductive Decision where
  | create (ses : Session)
  | topup (minutes increment : Nat)
  deriving DecidableEq, Repr

/-- The purchase limits of a position; a washer has none, and then they are not read (R23). -/
def PosConfig.purchase (c : PosConfig) : PurchaseLimits :=
  c.limits.getD { minimum := 0, maximum := 0, dflt := 0 }

/-- The session a new request creates, in STARTING with the frozen terms of R88 and the hold of R99. -/
def newSession (cfg : PosConfig) (card : Card) (e : PriceEntry) (reading : BandReading) (t : TermIx)
    (reqTag : Byte) (program : Nat) (asked : OptionSet) (minutes : Nat) : Session :=
  let taken := optionsTaken e asked
  let purchased := match cfg.cls with
    | .washer => 0
    | .dryer => purchaseMinutes cfg.purchase minutes
  let ses : Session :=
    { mclass := cfg.cls, cclass := card.cls, program := program, options := taken, cardId := card.id,
      term := t, reqTag := reqTag, base := e.base, ph := e.ph, pc := e.pc,
      surcharge := surchargeSum e taken, n := e.n, m := reading.m, d := card.discount,
      startMinute := reading.minute, state := .starting, hold := 0, purchased := purchased, ext := none,
      elapsed := 0, heated := 0, cool := 0, secs := 0, heatSecs := 0, startLimit := none,
      pauseLimit := none, doneLimit := none, holding := false, startReport := false,
      minuteDue := false }
  { ses with hold := match cfg.cls with
      | .washer => ses.net
      | .dryer => ses.holdFor purchased }

/-- Check 12 of R99: the card has no daily limit, or spent today plus the amount is within it. -/
def Card.withinDay (c : Card) (amount : Nat) : Bool :=
  match c.limit with
  | none => true
  | some l => c.spent + amount ≤ l

/-- Checks 11 and 12 of R99 for an amount; skipped for SERVICE (R99, R100). -/
def checkFunds (cls : CardClass) (card : Card) (amount : Nat) : Option DeclineReason :=
  if cls = .service then none
  else if card.balance - card.held < amount then some .insufficientFunds
  else if !card.withinDay amount then some .dailyLimit
  else none

/-- Checks 7 to 12 for a new session (R99). -/
def authorizeNew (p : PosIx) (cfg : PosConfig) (card : Card) (t : TermIx) (r : CardRequest) (s : State) :
    Except DeclineReason Decision :=
  match findPrice cfg.cls r.program.toNat s.ret.prices with
  | none => .error .noSuchProgram
  | some e =>
    if !(s.vol p).lastState.any (fun x => x.mstate == .ready || x.mstate == .doorOpen) then
      .error .machineNotReady
    else if Config.settlementCapacity ≤ s.openSessions + s.ret.settlements.length then
      .error .settlementFull
    else if s.ret.pendingBudget.isSome || decide (s.ret.budget < s.committed + s.motorLoad p) then
      .error .roomAtCapacity
    else
      let ses := newSession cfg card e s.bandReading t r.reqTag r.program.toNat r.options r.minutes.toNat
      match checkFunds card.cls card ses.hold with
      | some reason => .error reason
      | none => .ok (.create ses)

/-- The top-up path (R100): the minutes added and the increment by the session's frozen terms. -/
def authorizeTopup (cfg : PosConfig) (card : Card) (ses : Session) (r : CardRequest) :
    Except DeclineReason Decision :=
  let minutes := topupMinutes cfg.purchase ses.purchased r.minutes.toNat
  if minutes = 0 then .error .topupAtMaximum
  else
    let increment := ses.holdFor (ses.purchased + minutes) - ses.holdFor ses.purchased
    match checkFunds ses.cclass card increment with
    | some reason => .error reason
    | none => .ok (.topup minutes increment)

/-- The twelve checks of R99, in order, with the top-up path of R100 at check 6. -/
def authorize (p : PosIx) (t : TermIx) (r : CardRequest) (s : State) : Except DeclineReason Decision :=
  match (s.record p).config with
  | none => .error .noSuchMachine
  | some cfg =>
    match s.card r.cardId with
    | none => .error .unknownCard
    | some card =>
      if card.state = .blocked then .error .cardBlocked
      else if s.bandReading.closed && card.cls == .resident then .error .roomClosed
      else if (s.vol p).bus.presence != .present || (s.record p).fault.isSome
          || ((s.record p).oos && card.cls != .service) then .error .machineUnavailable
      else
        match s.session p with
        | none => authorizeNew p cfg card t r s
        | some ses =>
          if ses.cardId = r.cardId && ses.mclass == .dryer && ses.state == .running && ses.ext.isNone
          then authorizeTopup cfg card ses r
          else .error .machineBusy

/-- A new session is created in the steps of R101; a START refused at a full queue cancels it (R103). -/
def createSession (p : PosIx) (ses : Session) (s : State) : State :=
  let s := placeHold ses.cardId ses.hold (.record p ses) s
  let s := s.setVol p fun v => { v with windDown := false }
  if s.queueHasRoom p then
    let s := appendOrder p (newOrder (.start ses.program ses.options ses.purchased)) s
    let s := s.setSession p fun o => o.map fun x => { x with startLimit := some s.ret.config.startLimit }
    s.markChanged p
  else cancelSession p .machineNotReady (s.markChanged p)

/-- A top-up is recorded in the steps of R112; an EXTEND refused at a full queue fails it (R114). -/
def recordTopup (p : PosIx) (t : TermIx) (reqTag : Byte) (minutes increment : Nat) (s : State) : State :=
  match s.session p with
  | none => s
  | some ses =>
    let e : Extension :=
      { minutes := minutes, hold := increment, term := t, reqTag := reqTag, limit := none }
    let s := placeHold ses.cardId increment
      (.record p { ses with ext := some e, hold := ses.hold + increment }) s
    if s.queueHasRoom p then
      let s := appendOrder p (newOrder (.extend minutes)) s
      s.setSession p fun o => o.map fun x =>
        { x with ext := x.ext.map fun e => { e with limit := some s.ret.config.startLimit } }
    else extensionFail p .machineNotReady s

/-- The session table takes a card request whole (R99 to R101, R112). -/
def takeRequest (p : PosIx) (t : TermIx) (r : CardRequest) (s : State) : State :=
  match authorize p t r s with
  | .error reason => sendDecline t r.reqTag reason r.cardId s
  | .ok (.create ses) => createSession p ses s
  | .ok (.topup minutes increment) => recordTopup p t r.reqTag minutes increment s

/-! ## Outcomes of START and EXTEND -/

/-- A START confirmed TAKEN moves its session to RUNNING (R104). -/
def startTaken (p : PosIx) (s : State) : State :=
  match s.session p with
  | none => s
  | some ses =>
    let s := s.setSession p fun o => o.map fun x =>
      { x with
        startLimit := none, state := .running, secs := 0, heatSecs := 0, startReport := true }
    let minutes := match ses.mclass with
      | .washer => ses.n
      | .dryer => ses.purchased
    let s := sendAnswer ses.term
      (acceptAnswer ses.reqTag ses.hold minutes ses.options (s.available ses.cardId)) s
    s.markChanged p

/-- An EXTEND confirmed TAKEN makes the extension's minutes the session's (R113). -/
def extendTaken (p : PosIx) (s : State) : State :=
  match s.session p with
  | none => s
  | some ses =>
    match ses.ext with
    | none => s
    | some e =>
      let s := s.setSession p fun o => o.map fun x =>
        { x with purchased := x.purchased + e.minutes, ext := none, holding := false }
      sendAnswer e.term
        (acceptAnswer e.reqTag e.hold e.minutes ses.options (s.available ses.cardId)) s

/-! ## Unpaid runs -/

/-- A possible unpaid run (R116): a RUNNING report with no session (`fromState`), or a TAKEN for the START
of a gone session. -/
def unpaidRun (p : PosIx) (fromState : Bool) (s : State) : State :=
  if fromState && (s.vol p).windDown then s
  else if (s.vol p).unpaid then
    if (s.vol p).haltStands then s else askHalt p s
  else
    let s := raiseNotice 19 (some p) none s
    let s := s.setVol p fun v => { v with unpaid := true }
    askHalt p s

/-! ## The machine state of a STATE -/

/-- A RUNNING session goes to PAUSED; a dryer's pause limit begins and the grant is withdrawn (R109). -/
def pauseSession (p : PosIx) (s : State) : State :=
  let s := s.setSession p fun o => o.map fun x =>
    { x with
      state := .paused
      pauseLimit := match x.mclass with
        | .washer => none
        | .dryer => some (s.ret.config.pauseLimit * 60) }
  let s := withdraw p s
  s.markChanged p

/-- A PAUSED session returns to RUNNING (R109). -/
def resumeSession (p : PosIx) (s : State) : State :=
  let s := s.setSession p fun o => o.map fun x => { x with state := .running, pauseLimit := none }
  s.markChanged p

/-- A close CYCLE_LOST, and CYCLE_LOST raised with its settlement number (R111). -/
def loseCycle (p : PosIx) (s : State) : State :=
  let number := s.ret.nextSettlement
  let s := closeSession p (.plain .cycleLost) s
  raiseNotice 20 (some p) (some number) s

/-- The table of R108 for a session whose start report is not pending. -/
def applyReport (p : PosIx) (ses : Session) (ms : MachineState) (s : State) : State :=
  match ses.state, ms with
  | .starting, _ => s
  | .running, .paused => pauseSession p s
  | .paused, .running => resumeSession p s
  | .running, .running => s
  | .paused, .paused => s
  | .ending, .running => s
  | .ending, .paused => s
  | _, .done => closeSession p (.plain .completed) s
  | _, .ready => loseCycle p s
  | _, .doorOpen => loseCycle p s

/-- The marks of R116 that a machine state clears. -/
def clearMarks (p : PosIx) (ms : MachineState) (s : State) : State :=
  s.setVol p fun v =>
    { v with
      unpaid := v.unpaid && ms == .running
      windDown := v.windDown && (ms == .running || ms == .paused) }

/-- The session table takes the machine state of a VALID STATE (R31 step 2, R104, R106, R108, R116). -/
def sessionTakesState (p : PosIx) (ms : MachineState) (s : State) : State :=
  let s := clearMarks p ms s
  match s.session p with
  | none => if ms = .running then unpaidRun p true s else s
  | some ses =>
    if ses.startReport then
      s.setSession p fun o => o.map fun x => { x with startReport := false }
    else applyReport p ses ms s

/-! ## The meter -/

/-- A completed minute is counted (R107); a dryer whose elapsed minutes reach P goes to ENDING, or its
meter holds while an extension is open (R110). -/
def countMinute (p : PosIx) (s : State) : State :=
  match s.session p with
  | none => s
  | some ses =>
    if !ses.minuteDue then s
    else
      match ses.mclass with
      | .washer =>
        s.setSession p fun o => o.map fun x =>
          { x with minuteDue := false, elapsed := min (x.elapsed + 1) 255 }
      | .dryer =>
        let hot := Config.heatedSeconds ≤ ses.heatSecs
        let reached := ses.elapsed + 1 == ses.purchased
        let s := s.setSession p fun o => o.map fun x =>
          { x with
            minuteDue := false
            elapsed := x.elapsed + 1
            heated := if hot then x.heated + 1 else x.heated
            cool := if hot then x.cool else x.cool + 1
            heatSecs := 0
            holding := x.holding || (reached && x.ext.isSome) }
        if reached && ses.ext.isNone then goEnding p s else s

/-- One second off a running limit. -/
def tickLimit (l : Option Nat) : Option Nat := l.map (· - 1)

/-- One tick of a session record: its limits run (R98), and the meter of a RUNNING session that is not
holding advances (R107). `granted` is the answer of the heat budget unit (R140). -/
def Session.tick (ses : Session) (granted : Bool) : Session :=
  let ses := { ses with
    startLimit := tickLimit ses.startLimit
    pauseLimit := tickLimit ses.pauseLimit
    doneLimit := tickLimit ses.doneLimit
    ext := ses.ext.map fun e => { e with limit := tickLimit e.limit } }
  if ses.state = .running && !ses.holding then
    let full := ses.secs + 1 == 60
    { ses with
      heatSecs := if ses.mclass == .dryer && granted then ses.heatSecs + 1 else ses.heatSecs
      secs := if full then 0 else ses.secs + 1
      minuteDue := full }
  else ses

/-- One tick of the session of a position, as one retained write (R183). -/
def tickSession (p : PosIx) (s : State) : State :=
  if (s.session p).isSome then
    s.setSession p fun o => o.map fun x => x.tick ((s.vol p).grant == .granted)
  else s

end Sys2Proof.Machine
end

