-- ==== Sys2Proof/Machine/Faults.lean ====
section
/-! DEFINITION. The fault unit (chapter 8): classification (R141), raising a position fault with its effects
(R143 to R150), and clearing (R152 to R154). -/

namespace Sys2Proof.Machine

/-- The classification of a code as it stands: loaded for 1 to 15, fixed for 16 to 24 (R141). -/
def State.classOf (s : State) (code : Nat) : FaultClass :=
  if h : 1 ≤ code ∧ code ≤ 15 then s.ret.classes[code - 1]
  else if code = 16 then { severity := .lockout, policy := .unused, autoClear := true }
  else if code = 17 then { severity := .safety, policy := .full, autoClear := false }
  else if code = 18 then { severity := .lockout, policy := .full, autoClear := false }
  else { severity := .notice, policy := .full, autoClear := false }

/-- A fault becomes the position's active fault, or replaces it: the changed flag is set and the display
demand is acted on (R148 step 1, R150). -/
def setActive (p : PosIx) (code : Nat) (c : FaultClass) (s : State) : State :=
  let s := withDisplay p (fun r =>
    { r with
      fault := some { code := code, severity := c.severity, autoClear := c.autoClear } }) s
  s.markChanged p

/-- The position's session is ended by a fault: a STARTING one is cancelled, another is closed FAULT under
the code's policy; the settlement number is handed back where a close was made (R148 step 2). -/
def endByFault (p : PosIx) (code : Nat) (c : FaultClass) (s : State) : State × Option Nat :=
  match s.session p with
  | none => (s, none)
  | some ses =>
    match ses.state with
    | .starting => (cancelSession p .machineFault s, none)
    | .running | .paused | .ending =>
      (closeSession p
        { reason := .fault, policy := c.policy, code := some code, safety := c.severity == .safety } s,
       some s.ret.nextSettlement)

/-- Steps 1 to 3 of R148, for LOCKOUT and SAFETY alike. -/
def becomeActive (p : PosIx) (code : Nat) (c : FaultClass) (detail : Option MissKind) (s : State) :
    State :=
  let s := setActive p code c s
  let r := endByFault p code c s
  appendFault code (some p) c.severity r.2 detail r.1

/-- Steps 4 to 6 of R149: HALT, HEAT_OFF and the withdrawal of the grant. -/
def makeSafe (p : PosIx) (s : State) : State := withdraw p (askHeatOff p (askHalt p s))

/-- A position fault is raised with the classification its entry holds (R143, R144, R147 to R150). -/
def raiseFault (p : PosIx) (code : Nat) (detail : Option MissKind) (s : State) : State :=
  let c := s.classOf code
  match c.severity, (s.record p).fault with
  | .notice, _ => raiseNotice code (some p) none s
  | .lockout, none => becomeActive p code c detail s
  | .lockout, some _ => appendFault code (some p) .lockout none detail s
  | .safety, none => makeSafe p (becomeActive p code c detail s)
  | .safety, some f =>
    match f.severity with
    | .safety => askHeatOff p (askHalt p (appendFault code (some p) .safety none detail s))
    | .notice | .lockout =>
      makeSafe p (appendFault code (some p) .safety none detail (setActive p code c s))

/-- An active fault is cleared (R154). -/
def clearActive (p : PosIx) (s : State) : State :=
  let s := withDisplay p (fun r => { r with fault := none }) s
  s.markChanged p

/-- The cause of an active fault is still seen (R153). -/
def State.causeSeen (s : State) (p : PosIx) (f : ActiveFault) : Bool :=
  let v := s.vol p
  if 1 ≤ f.code ∧ f.code ≤ 15 then v.lastState.any (fun x => x.fault == f.code)
  else if f.code = 16 then v.bus.presence == .lost
  else if f.code = 17 then v.lastState.any (·.heaterOn)
  else if f.code = 18 then
    v.lastState.any fun x => (s.record p).config.any fun c => x.cls != c.cls
  else false

/-- The fault unit takes the fault field and machine state of a VALID STATE (R143, R152). -/
def faultTakesField (p : PosIx) (field : Nat) (ms : MachineState) (s : State) : State :=
  let previous := (s.vol p).prevFault
  let s := s.setVol p fun v => { v with prevFault := field }
  if field = 0 then
    match (s.record p).fault with
    | some f => if f.code ≤ 15 && f.autoClear && ms == .ready then clearActive p s else s
    | none => s
  else if field = previous then s
  else raiseFault p field none s

/-- The class of a VALID STATE against the configured class (R30, R144): a mismatch is reported once until
a STATE carries the configured class. -/
def faultTakesClass (p : PosIx) (cls : MachineClass) (s : State) : State :=
  if (s.record p).config.any (fun c => c.cls != cls) then
    if (s.vol p).mismatch then s
    else
      let s := s.setVol p fun v => { v with mismatch := true }
      raiseFault p 18 none s
  else s.setVol p fun v => { v with mismatch := false }

end Sys2Proof.Machine
end

