-- ==== Sys2Proof/Machine/Positions.lean ====
section
/-! DEFINITION. What a VALID STATE and a confirmed order do at a position (R31, R32), the heat budget unit's part
of a STATE (R132, R138, R139), and the changes of presence of a machine (R21, R27, R106, R136). -/

namespace Sys2Proof.Machine

/-! ## Confirmed orders -/

/-- The outcome of a confirmed order goes to its owner (R32, R103, R104, R105, R113, R114, R116, R128,
R130). -/
def reportOutcome (p : PosIx) (o : Order) (out : OrderOutcome) (s : State) : State :=
  match o.body, out with
  | .start .., .taken => if o.owned then startTaken p s else unpaidRun p false s
  | .start .., .refused _ => if o.owned then cancelIfStarting p .machineNotReady s else s
  | .extend _, .taken => if o.owned then extendTaken p s else s
  | .extend _, .refused _ => if o.owned then extensionFail p .machineNotReady s else s
  | .heatOn, .taken => s
  | .heatOn, .refused _ => heatOnRefused p s
  | .heatOff, _ => s.setVol p fun v => { v with armed := true }
  | .finish, _ => s
  | .halt, _ => s
  | .disable, _ => s
  | .enable, _ => s

/-- The order in delivery at the head is confirmed: it leaves, its outcome goes to its owner, and an owed
display order is tried (R18, R32; log entry 19). -/
def confirmOrder (p : PosIx) (out : OrderOutcome) (s : State) : State :=
  match (s.vol p).orders with
  | [] => s
  | o :: rest =>
    let s := s.setVol p fun v => { v with orders := rest }
    serveOwed p (reportOutcome p o out s)

/-! ## The heat budget unit's part of a STATE -/

/-- Whether a STATE is tested for a heat violation (R138). -/
def State.heatTested (s : State) (p : PosIx) : Bool :=
  (s.vol p).armed && decide (0 < s.heaterDemand p)

/-- Whether a tested STATE is violating: the heater is on, the grant is not GRANTED, and no HEAT_OFF
stands (R138). -/
def State.heatViolating (s : State) (p : PosIx) (heaterOn : Bool) : Bool :=
  heaterOn && (s.vol p).grant != .granted && !(s.vol p).heatOffStands

/-- The violation test (R138, R139). -/
def testViolation (p : PosIx) (heaterOn : Bool) (s : State) : State :=
  if !s.heatTested p then s
  else if s.heatViolating p heaterOn then
    let before := (s.vol p).violations
    let s := s.setVol p fun v => { v with violations := min (v.violations + 1) 2 }
    if before = 1 then raiseFault p 17 none s else s
  else s.setVol p fun v => { v with violations := 0 }

/-- The release test (R131): a RELEASING grant ends at a STATE with the heater off and no HEAT_OFF
standing. -/
def State.releaseEnds (s : State) (p : PosIx) (heaterOn : Bool) : Bool :=
  (s.vol p).grant == .releasing && !heaterOn && !(s.vol p).heatOffStands

/-- A RELEASING grant becomes NONE; committed load falls, and the position joins the queue when `request`
carries its heat request and it may queue (R131). -/
def finishRelease (p : PosIx) (request : Bool) (s : State) : State :=
  let s := activatePending (endGrant p s)
  let s := if request && s.mayQueue p then joinQueue p s else s
  evaluate s

/-- The heat budget unit takes a VALID STATE in the order of R132. DESIGN CHOICE: the STATE of the reply that confirms
HEAT_ON REFUSED is already a later STATE of R128, so its heat request is honoured (log entry 37). -/
def heatTakesState (p : PosIx) (heaterOn request : Bool) (s : State) : State :=
  let s := testViolation p heaterOn s
  let ends := s.releaseEnds p heaterOn
  let honoured := ends && request && s.sessionIs p .running && decide (0 < s.heaterDemand p)
  let s := if ends then finishRelease p request s else s
  let s := s.setVol p fun v => { v with heatRequest := request }
  if request then
    if !honoured && s.mayQueue p then evaluate (joinQueue p s) else s
  else withdraw p s

/-! ## The dispatch of a STATE -/

/-- A VALID STATE is stored and handed to the fault unit, the session table and the heat budget unit in
turn (R29, R30, R31). -/
def dispatchState (p : PosIx) (x : LastState) (s : State) : State :=
  let s := s.setVol p fun v => { v with lastState := some x }
  let s := faultTakesClass p x.cls s
  let s := faultTakesField p x.fault x.mstate s
  let s := sessionTakesState p x.mstate s
  heatTakesState p x.heaterOn x.heatRequest s

/-! ## Presence of a machine -/

/-- A machine position has become LOST (R21): NODE_LOST is raised with the last miss kind, a STARTING
session is cancelled (R106), and the grant is withdrawn (R136). DESIGN CHOICE: the fault and the end of the
session come before the withdrawal, which R136 leaves open (log entry 33). -/
def machineLost (p : PosIx) (kind : MissKind) (s : State) : State :=
  let s := s.markChanged p
  let s := raiseFault p 16 (some kind) s
  let s := cancelIfStarting p .machineFault s
  withdraw p s

/-- A machine position has become PRESENT (R21): the display order that matches the demand is queued
(R27), then an active NODE_LOST clears (R152). -/
def machinePresent (p : PosIx) (s : State) : State :=
  let s := s.markChanged p
  let s := askDisplay p s
  match (s.record p).fault with
  | some f => if f.code = 16 then clearActive p s else s
  | none => s

end Sys2Proof.Machine
end

