-- ==== Sys2Proof/Machine/Bus.lean ====
section
/-! DEFINITION. The poll sequencer and the room bus port (chapter 1): visit order (R12 to R14), items and tags
(R16 to R19), presence (R20, R21), card requests at a terminal (R49 to R51), the conclusion of a visit (R7),
and jams (R9). -/

namespace Sys2Proof.Machine

/-! ## Nodes -/

/-- The bus state of a node. -/
def State.nodeBus (s : State) : Node → NodeBus
  | .machine p => (s.vol p).bus
  | .terminal t => (s.terminal t).bus

/-- Changes the bus state of a node. -/
def State.setNodeBus (s : State) (node : Node) (f : NodeBus → NodeBus) : State :=
  match node with
  | .machine p => s.setVol p fun v => { v with bus := f v.bus }
  | .terminal t => s.setTerm t fun v => { v with bus := f v.bus }

/-- Whether a node is configured. -/
def State.nodeConfigured (s : State) : Node → Bool
  | .machine p => s.configured p
  | .terminal t => s.termConfigured t

/-- The configured machine positions in rising order. -/
def State.machines (s : State) : List PosIx := allPositions.filter s.configured

/-- The configured terminals in rising order. -/
def State.terminals (s : State) : List TermIx := allTerminals.filter s.termConfigured

/-! ## Visit order -/

/-- The nodes of one kind in the order in which a slot is offered: from the lowest address above the
pointer, rising, and wrapping (R13, R14). -/
def fromPointer {n : Nat} (ptr : Option (Fin n)) (xs : List (Fin n)) : List (Fin n) :=
  match ptr with
  | none => xs
  | some a => xs.filter (fun x => a < x) ++ xs.filter (fun x => x ≤ a)

/-- The next place of the pattern (R12). -/
def Slot.next : Slot → Slot
  | .machine1 => .machine2
  | .machine2 => .terminal
  | .terminal => .machine1

/-- Whether the current slot is a machine slot: by the pattern, but every slot is of the one kind that has
a configured node (R12). -/
def State.machineSlot (s : State) : Bool :=
  if s.terminals.isEmpty then true
  else if s.machines.isEmpty then false
  else s.bus.slot != .terminal

/-- The nodes to which the current slot is offered, in order (R12, R13). -/
def State.candidates (s : State) : List Node :=
  if s.machineSlot then (fromPointer s.bus.machinePtr s.machines).map .machine
  else (fromPointer s.bus.terminalPtr s.terminals).map .terminal

/-- A slot is offered to nodes in turn (R14): a LOST node with a skip count below 7 passes its turn. -/
def offer : List Node → State → State × Option Node
  | [], s => (s, none)
  | node :: rest, s =>
    let b := s.nodeBus node
    if b.presence != .lost then (s, some node)
    else if 7 ≤ b.skip then (s.setNodeBus node fun b => { b with skip := 0 }, some node)
    else offer rest (s.setNodeBus node fun b => { b with skip := b.skip + 1 })

/-- Fills the current slot and the next ones until one produces a visit (R12). Each slot that produces none
raises the skip count of every node of its kind, so that fewer than 24 slots pass (log entry 32). -/
def fillSlots : Nat → State → State × Option Node
  | 0, s => (s, none)
  | k + 1, s =>
    let r := offer s.candidates s
    let s := r.1.setBus fun b => { b with slot := b.slot.next }
    match r.2 with
    | some node => (s, some node)
    | none => fillSlots k s

/-- A change of configuration that leaves the slot at a kind with no configured node moves it to the next
place that has one (R12; log entry 16). -/
def settleSlot (s : State) : State :=
  match s.bus.slot, s.machines.isEmpty, s.terminals.isEmpty with
  | .machine1, true, false => s.setBus fun b => { b with slot := .terminal }
  | .machine2, true, false => s.setBus fun b => { b with slot := .terminal }
  | .terminal, false, true => s.setBus fun b => { b with slot := .machine1 }
  | _, _, _ => s

/-! ## Beginning a visit -/

/-- The tag of an item to be sent: its own when it is in delivery, else the counter raised by 1 (R17). -/
def sendTag (counter : ItemTag) (own : Option ItemTag) : ItemTag := own.getD (counter + 1#4)

/-- The frame of a visit to a machine and the tag of the order it carries; an order sent for the first
time is stamped and becomes in delivery (R16, R17). -/
def loadMachineVisit (p : PosIx) (s : State) : State × List BusChar × Option ItemTag :=
  let v := s.vol p
  match v.bus.learned, v.orders with
  | true, o :: rest =>
    let t := sendTag v.bus.counter o.tag
    let s := s.setVol p fun v =>
      { v with
        orders := { o with tag := some t } :: rest
        bus := { v.bus with counter := if o.tag.isSome then v.bus.counter else t } }
    (s, orderFrame p o.body t, some t)
  | _, _ => (s, askFrame (.machine p), none)

/-- The frame of a visit to a terminal and the tag of the item it carries (R16, R17). -/
def loadTerminalVisit (t : TermIx) (s : State) : State × List BusChar × Option ItemTag :=
  let v := s.terminal t
  match v.bus.learned, v.outbox with
  | true, i :: rest =>
    let tag := sendTag v.bus.counter i.tag
    let s := s.setTerm t fun v =>
      { v with
        outbox := { i with tag := some tag } :: rest
        bus := { v.bus with counter := if i.tag.isSome then v.bus.counter else tag } }
    (s, itemFrame t i.body tag, some tag)
  | _, _ => (s, askFrame (.terminal t), none)

/-- The visit to a node begins: its pointer takes the node's address, its frame is chosen, and the port
begins to send it at the rate in force (R2, R3, R13, R16). -/
def beginVisit (node : Node) (s : State) : State :=
  let r := match node with
    | .machine p => loadMachineVisit p s
    | .terminal t => loadTerminalVisit t s
  r.1.setBus fun b =>
    { b with
      machinePtr := match node with
        | .machine p => some p
        | .terminal _ => b.machinePtr
      terminalPtr := match node with
        | .machine _ => b.terminalPtr
        | .terminal t => some t
      space := none
      visit := some
        { node := node, tag := r.2.2, frame := r.2.1.map charTime, rate := r.1.ret.config.busRate,
          phase := .sending, removed := false } }

/-- The sequencer may begin a visit: none is in progress, the receiver is listening and the bus is not
JAMMED (R12). -/
def State.mayVisit (s : State) : Bool := s.bus.visit.isNone && s.bus.listening && !s.bus.jammed

/-- The sequencer fills the slot and begins the visit it produced, if any (R12). -/
def startVisit (s : State) : State :=
  if s.machines.isEmpty && s.terminals.isEmpty then s
  else
    let r := fillSlots 24 s
    match r.2 with
    | some node => beginVisit node r.1
    | none => r.1

/-! ## Presence -/

/-- A node's reply was DAMAGED or its visit SILENT (R20, R21). -/
def missNode (node : Node) (kind : MissKind) (s : State) : State :=
  let b := s.nodeBus node
  if b.presence = .lost then s.setNodeBus node fun b => { b with miss := min (b.miss + 1) 15 }
  else if b.miss + 1 < s.ret.config.lostLimit then
    s.setNodeBus node fun b => { b with miss := b.miss + 1 }
  else
    let s := s.setNodeBus node fun b =>
      { b with miss := min (b.miss + 1) 15, presence := .lost, lastMiss := some kind, skip := 0 }
    match node with
    | .machine p => machineLost p kind s
    | .terminal t => terminalLost t s

/-- A VALID reply updates presence first (R20, R21). -/
def heardNode (node : Node) (s : State) : State :=
  let was := (s.nodeBus node).presence
  let s := s.setNodeBus node fun b => { b with presence := .present, miss := 0, skip := 0 }
  if was = .present then s
  else
    match node with
    | .machine p => machinePresent p s
    | .terminal _ => s

/-! ## Card requests at a terminal -/

/-- A CARD is a repeat (R49). -/
def State.repeats (s : State) (t : TermIx) (tag : Byte) : Bool :=
  let v := s.terminal t
  v.request == some tag || (v.request.isNone && v.lastTag == some tag) || v.outbox.any (Item.busyFor tag)

/-- The terminal checks of R51: the reason of the first that fails, or the position. -/
def terminalChecks (r : CardRequest) : Except DeclineReason PosIx :=
  match posOf r.position with
  | none => .error .noSuchMachine
  | some p =>
    if r.cardId = 0#64 then .error .unknownCard
    else if 1 ≤ r.program.toNat ∧ r.program.toNat ≤ 15 then .ok p
    else .error .noSuchProgram

/-- The terminal table takes a VALID CARD (R49, R50, R51). -/
def takeCard (t : TermIx) (r : CardRequest) (s : State) : State :=
  if s.repeats t r.reqTag then s
  else if (s.terminal t).request.isSome then
    if (s.terminal t).outbox.any Item.isBusy then s
    else queueAnswer t (declineAnswer r.reqTag .terminalBusy (s.available r.cardId)) true s
  else
    let s := s.setTerm t fun v => { v with request := some r.reqTag }
    match terminalChecks r with
    | .error reason => queueAnswer t (declineAnswer r.reqTag reason (s.available r.cardId)) false s
    | .ok p => takeRequest p t r s

/-! ## The conclusion of a visit -/

/-- The class of a visit that is not abandoned (R7). -/
inductive ReplyClass where
  | valid (f : ReplyFields)
  | damaged
  | silent
  deriving DecidableEq, Repr

/-- The tag a reply echoes (R194). -/
def ReplyFields.echo : ReplyFields → ItemTag
  | .state r => r.echo
  | .nil e => e
  | .card e _ => e

/-- The head item of a node's queue or outbox is in delivery with a tag. -/
def State.headTag (s : State) (node : Node) : Option ItemTag :=
  match node with
  | .machine p => (s.vol p).orders.head?.bind (·.tag)
  | .terminal t => (s.terminal t).outbox.head?.bind (·.tag)

/-- A VALID reply learns the tag, or confirms the item the visit carried when the echo equals its tag (R17,
R18, R19). -/
def learnOrConfirm (node : Node) (carried : Option ItemTag) (f : ReplyFields) (s : State) : State :=
  if !(s.nodeBus node).learned then
    s.setNodeBus node fun b => { b with counter := f.echo, learned := true }
  else if carried = some f.echo && s.headTag node == some f.echo then
    match node, f with
    | .machine p, .state r => confirmOrder p r.outcome s
    | .terminal t, _ => confirmItem t s
    | .machine _, _ => s
  else s

/-- The reply's fields go to the node's owner (R20, R31, R49). -/
def handOn (node : Node) (f : ReplyFields) (s : State) : State :=
  match node, f with
  | .machine p, .state r => dispatchState p r.last s
  | .terminal t, .card _ r => takeCard t r s
  | .machine _, .nil _ => s
  | .machine _, .card .. => s
  | .terminal _, .nil _ => s
  | .terminal _, .state _ => s

/-- A VALID reply, in the order of R20: presence, tag or confirmation, fields. -/
def takeValid (node : Node) (carried : Option ItemTag) (f : ReplyFields) (s : State) : State :=
  handOn node f (learnOrConfirm node carried f (heardNode node s))

/-- A visit ends with its class and the sequencer acts on it (R7); the reply of a node removed during the
visit is discarded (R15). -/
def concludeVisit (v : Visit) (c : ReplyClass) (s : State) : State :=
  let s := s.setBus fun b => { b with visit := none, space := none }
  if v.removed then s
  else
    match c with
    | .valid f => takeValid v.node v.tag f s
    | .damaged => missNode v.node .damaged s
    | .silent => missNode v.node .silent s

/-- The characters of a reply that has not been ended by a break: those received so far, none while the
window is open; no reply can begin while the frame is being sent (R4, R5). -/
def Visit.received (v : Visit) : Option (List BusChar) :=
  match v.phase with
  | .sending => none
  | .window => some []
  | .reply chars broken => if broken then none else some chars

/-- A visit whose reply has the given characters; no reply begins without a character. -/
def Visit.withReply (v : Visit) (chars : List BusChar) (broken : Bool) : Visit :=
  if chars.isEmpty && !broken then v else { v with phase := .reply chars broken }

/-- Characters are received during a visit (R4 to R7): a reply that reaches its full count ends and is
classified; otherwise it goes on. -/
def receiveChars (v : Visit) (old chars : List BusChar) (s : State) : State :=
  let all := old ++ chars
  if replyIsComplete all then
    match classify v.node all false false with
    | some f => concludeVisit v (.valid f) s
    | none => concludeVisit v .damaged s
  else s.setBus fun b => { b with visit := some (v.withReply all false), space := none }

/-- A gap or a break has ended a reply: it is classified by its error set, which is then not empty (R5,
R7). -/
def concludeBroken (v : Visit) (chars : List BusChar) (gap broken : Bool) (s : State) : State :=
  match classify v.node chars gap broken with
  | some f => concludeVisit v (.valid f) s
  | none => concludeVisit v .damaged s

/-! ## Jams -/

/-- The receiver is off while the part transmits (R1). -/
def State.receiverOn (s : State) : Bool := !s.driverEnabled

/-- The bus becomes JAMMED (R9): a visit whose window is open or whose reply has begun is abandoned, the
receiver ignores the line, and BUS_JAMMED is raised. -/
def becomeJammed (s : State) : State :=
  let s := s.setBus fun b => { b with jammed := true, listening := false, visit := none }
  raiseNotice 22 none none s

/-- A stretch of space that has reached the jam limit jams the bus, once (R9). -/
def checkJam (s : State) : State :=
  if s.bus.space.any (fun ms => s.ret.config.jamLimit ≤ ms) && !s.bus.jammed && s.receiverOn then
    becomeJammed s
  else s

end Sys2Proof.Machine
end

