-- ==== Sys2Proof/Machine/Requests.lean ====
section
/-! DEFINITION. The gateway requests (section 10-4): what the owning block of each decides, on the state as it
stands when the request is processed (R171), with the status and the payload of its reply (R172, R196). -/

namespace Sys2Proof.Machine

/-- What processing a request gives: the state after it, and the status and payload of its reply. -/
structure Verdict where
  state : State
  status : Status
  payload : List Byte
  deriving DecidableEq, Repr

/-- A request that is refused changes nothing, and its reply carries no payload (R172). -/
def refuse (st : Status) (s : State) : Verdict := { state := s, status := st, payload := [] }

/-- A request that is carried out, with the payload its reply calls for (R172). -/
def accept (payload : List Byte) (s : State) : Verdict := { state := s, status := .ok, payload := payload }

/-! ## The gateway link's own requests -/

/-- STATUS (R178): the block is taken, then the RESTARTED latch is cleared. -/
def processStatus (s : State) : Verdict :=
  accept s.statusBlock (s.setLink fun l => { l with restarted := false })

/-- The configuration with the fields that the mask names brought into their ranges (R176, R196). -/
def RoomConfig.apply (c : RoomConfig) (mask busRate jamLimit : BitVec 16)
    (lostLimit startLimit pauseLimit doneLimit heatSlice settleTime attnMask : Byte) : RoomConfig :=
  { busRate := if mask.getLsbD 0 then BusRate.nearest busRate.toNat else c.busRate
    jamLimit := if mask.getLsbD 1 then clampJam jamLimit.toNat else c.jamLimit
    lostLimit := if mask.getLsbD 2 then clamp 2 15 lostLimit.toNat else c.lostLimit
    startLimit := if mask.getLsbD 3 then clamp 5 60 startLimit.toNat else c.startLimit
    pauseLimit := if mask.getLsbD 4 then clamp 5 30 pauseLimit.toNat else c.pauseLimit
    doneLimit := if mask.getLsbD 5 then clamp 2 20 doneLimit.toNat else c.doneLimit
    heatSlice := if mask.getLsbD 6 then clamp 2 20 heatSlice.toNat else c.heatSlice
    settleTime := if mask.getLsbD 7 then clamp 5 60 settleTime.toNat else c.settleTime
    attnMask := if mask.getLsbD 8 then attnMask.setWidth 7 else c.attnMask }

/-- SET CONFIG (R176): the configuration is changed as one whole; a new jam limit applies at once to a
stretch being timed (R9). -/
def processSetConfig (mask busRate jamLimit : BitVec 16)
    (lostLimit startLimit pauseLimit doneLimit heatSlice settleTime attnMask : Byte) (s : State) : Verdict :=
  let s := s.write fun r =>
    { r with
      config := r.config.apply mask busRate jamLimit lostLimit startLimit pauseLimit doneLimit heatSlice
        settleTime attnMask }
  accept s.ret.config.bytes (checkJam s)

/-- RESTART (R177): refused while any session is open; else the link processes no further request. -/
def processRestart (s : State) : Verdict :=
  if s.openSessions = 0 then accept [] (s.setLink fun l => { l with restarting := true })
  else refuse .inUse s

/-! ## The tariff unit's requests -/

/-- SET CLOCK (R79): a valid clock moved to another day signals rollover. -/
def processSetClock (minute : BitVec 16) (second : Byte) (s : State) : Verdict :=
  if Config.weekMinutes ≤ minute.toNat ∨ 59 < second.toNat then refuse .badValue s
  else
    let crosses := s.clock.valid && dayOf minute.toNat != dayOf s.clock.minute
    let s := { s with clock := { minute := minute.toNat, second := second.toNat, valid := true } }
    accept [] (if crosses then rollover s else s)

/-- The option and surcharge pairs of LOAD PRICE by their codes; none when an option is outside the four
(R83, R196). -/
def readPairs : List (Byte × BitVec 16) → Option (List (WashOption × Nat))
  | [] => some []
  | x :: rest =>
    match WashOption.ofCode x.1, readPairs rest with
    | some o, some tail => some ((o, x.2.toNat) :: tail)
    | _, _ => none

/-- A surcharge list passes the tests of R83: at most 4 pairs, each option once, no surcharge above
1,000. -/
def surchargesOk (xs : List (WashOption × Nat)) : Bool :=
  xs.length ≤ 4 && decide ((xs.map (·.1)).Nodup) && xs.all fun x => x.2 ≤ 1000

/-- The price entry that LOAD PRICE gives, when it passes the tests of R83. -/
def priceEntry (cls program : Byte) (base ph pc : BitVec 16) (n : Byte)
    (pairs : List (Byte × BitVec 16)) : Option PriceEntry :=
  match MachineClass.ofCode cls, readPairs pairs with
  | some c, some xs =>
    if surchargesOk xs && decide (1 ≤ program.toNat) && decide (program.toNat ≤ 15) then
      match c with
      | .washer =>
        if base.toNat ≤ 5000 ∧ 10 ≤ n.toNat ∧ n.toNat ≤ 180 then
          some { cls := c, program := program.toNat, base := base.toNat, ph := 0, pc := 0, n := n.toNat,
                 surcharges := xs }
        else none
      | .dryer =>
        if ph.toNat ≤ 500 ∧ pc.toNat ≤ ph.toNat then
          some { cls := c, program := program.toNat, base := 0, ph := ph.toNat, pc := pc.toNat, n := 0,
                 surcharges := xs }
        else none
    else none
  | _, _ => none

/-- LOAD PRICE (R83). -/
def processLoadPrice (cls program : Byte) (base ph pc : BitVec 16) (n : Byte)
    (pairs : List (Byte × BitVec 16)) (s : State) : Verdict :=
  match priceEntry cls program base ph pc n pairs with
  | none => refuse .badValue s
  | some e =>
    if (findPrice e.cls e.program s.ret.prices).isNone && decide (Config.priceCapacity ≤ s.ret.prices.length)
    then refuse .full s
    else accept [] (s.write fun r => { r with prices := putPrice e r.prices })

/-- REMOVE PRICE (R84). -/
def processRemovePrice (cls program : Byte) (s : State) : Verdict :=
  match MachineClass.ofCode cls with
  | none => refuse .badValue s
  | some c =>
    if 1 ≤ program.toNat ∧ program.toNat ≤ 15 then
      if (findPrice c program.toNat s.ret.prices).isNone then refuse .notFound s
      else
        accept [] (s.write fun r =>
          { r with prices := r.prices.filter fun e => !e.hasKey c program.toNat })
    else refuse .badValue s

/-- One band of LOAD BANDS, when its values are in range (R85, R196). -/
def readBand (x : BitVec 16 × Byte × Byte) : Option Band :=
  match flagOfCode x.2.2 with
  | none => none
  | some closed =>
    if x.1.toNat < Config.weekMinutes ∧ 50 ≤ x.2.1.toNat ∧ x.2.1.toNat ≤ 250 then
      some { start := x.1.toNat, multiplier := x.2.1.toNat, closed := closed }
    else none

/-- The bands of LOAD BANDS, when each is in range. -/
def readBands : List (BitVec 16 × Byte × Byte) → Option (List Band)
  | [] => some []
  | x :: rest =>
    match readBand x, readBands rest with
    | some b, some tail => some (b :: tail)
    | _, _ => none

/-- Start minutes strictly rising from the first band to the last (R85). -/
def startsRise : List Band → Bool
  | [] => true
  | [_] => true
  | a :: b :: rest => a.start < b.start && startsRise (b :: rest)

/-- LOAD BANDS (R85): the whole table is replaced. -/
def processLoadBands (bands : List (BitVec 16 × Byte × Byte)) (s : State) : Verdict :=
  match readBands bands with
  | none => refuse .badValue s
  | some bs =>
    if bs.length ≤ Config.bandCapacity && startsRise bs then
      accept [] (s.write fun r => { r with bands := bs })
    else refuse .badValue s

/-! ## The position table's requests -/

/-- The configuration fields that LOAD MACHINE gives, when they pass the tests of R24. -/
def machineConfig (cls heater motor minimum maximum dflt : Byte) : Option PosConfig :=
  match MachineClass.ofCode cls with
  | none => none
  | some c =>
    if heater.toNat ≤ 63 ∧ motor.toNat ≤ 15 then
      match c with
      | .washer => some { cls := c, heater := heater.toNat, motor := motor.toNat, limits := none }
      | .dryer =>
        let lo := minimum.toNat
        let hi := maximum.toNat
        let d := dflt.toNat
        if 5 ≤ lo ∧ lo ≤ 60 ∧ 10 ≤ hi ∧ hi ≤ 120 ∧ lo ≤ hi ∧ lo ≤ d ∧ d ≤ hi then
          some { cls := c, heater := heater.toNat, motor := motor.toNat,
                 limits := some { minimum := lo, maximum := hi, dflt := d } }
        else none
    else none

/-- A position is configured for the first time (R24, R15, R125): a new record and volatile state, the
changed flag set, and a HEAT_OFF asked for. -/
def configureNew (p : PosIx) (cfg : PosConfig) (s : State) : State :=
  let s := s.setRecord p fun _ => { config := some cfg, oos := false, fault := none }
  let s := s.setVol p fun _ => { PosState.new with changed := true }
  settleSlot (askHeatOff p s)

/-- The configuration of a position is replaced; a new class clears the mismatch flag (R24, R30). -/
def configureAgain (p : PosIx) (old cfg : PosConfig) (s : State) : State :=
  let s := s.setRecord p fun r => { r with config := some cfg }
  if old.cls = cfg.cls then s else s.setVol p fun v => { v with mismatch := false }

/-- The position has an open session or a grant other than NONE (R24, R25). -/
def State.positionHeld (s : State) (p : PosIx) : Bool :=
  (s.session p).isSome || (s.vol p).grant != .none

/-- LOAD MACHINE (R24). -/
def processLoadMachine (addr cls heater motor minimum maximum dflt : Byte) (s : State) : Verdict :=
  match posOf addr, machineConfig cls heater motor minimum maximum dflt with
  | some p, some cfg =>
    match (s.record p).config with
    | none => accept [] (configureNew p cfg s)
    | some old =>
      if s.positionHeld p then refuse .inUse s else accept [] (configureAgain p old cfg s)
  | _, _ => refuse .badValue s

/-- A visit to a node that is removed runs on, and its reply will be discarded (R15; log entry 17). -/
def discardVisit (node : Node) (s : State) : State :=
  s.setBus fun b =>
    { b with visit := b.visit.map fun v => if v.node = node then { v with removed := true } else v }

/-- A position is removed (R25): its record, volatile state and bus state go, and its changed flag is
set. -/
def removePosition (p : PosIx) (s : State) : State :=
  let s := s.setRecord p fun _ => PosRecord.empty
  let s := s.setVol p fun _ => { PosState.new with changed := true }
  settleSlot (discardVisit (.machine p) s)

/-- REMOVE MACHINE (R25). -/
def processRemoveMachine (addr : Byte) (s : State) : Verdict :=
  match posOf addr with
  | none => refuse .notFound s
  | some p =>
    if !s.configured p then refuse .notFound s
    else if s.positionHeld p then refuse .inUse s
    else accept [] (removePosition p s)

/-- OUT_OF_SERVICE takes a value: the display demand is acted on (R27), and a change of availability sets
the changed flag (R28, R33). -/
def setService (p : PosIx) (oos : Bool) (s : State) : State :=
  let before := s.availability p
  let s := withDisplay p (fun r => { r with oos := oos }) s
  if s.availability p = before then s else s.markChanged p

/-- SERVICE (R26; the order of its refusals is log entry 15). -/
def processService (addr value : Byte) (s : State) : Verdict :=
  match posOf addr with
  | none => refuse .notFound s
  | some p =>
    if !s.configured p then refuse .notFound s
    else
      match flagOfCode value with
      | none => refuse .badValue s
      | some oos => if (s.session p).isSome then refuse .inUse s else accept [] (setService p oos s)

/-- READ MACHINES for some addresses (R34): their entries are taken, then their changed flags cleared. -/
def readEntries (ps : List PosIx) (s : State) : Verdict :=
  accept (num1 ps.length :: ps.flatMap s.machineEntry)
    (s.setAllVol fun p v => if ps.contains p then { v with changed := false } else v)

/-- READ MACHINES (R34). -/
def processReadMachines (mode : Byte) (s : State) : Verdict :=
  if mode = 0#8 then readEntries allPositions s
  else if mode = 1#8 then readEntries (allPositions.filter fun p => (s.vol p).changed) s
  else refuse .badValue s

/-! ## The terminal table's requests -/

/-- Changes whether a terminal is configured, as one retained write. -/
def State.setTerminal (t : TermIx) (on : Bool) (s : State) : State :=
  s.write fun r => { r with terminals := r.terminals.set t.val on }

/-- LOAD TERMINAL (R46). -/
def processLoadTerminal (addr : Byte) (s : State) : Verdict :=
  match termOf addr with
  | none => refuse .badValue s
  | some t =>
    if s.termConfigured t then accept [] s
    else accept [] (settleSlot ((s.setTerminal t true).setTerm t fun _ => TermState.new))

/-- REMOVE TERMINAL (R47). -/
def processRemoveTerminal (addr : Byte) (s : State) : Verdict :=
  match termOf addr with
  | none => refuse .notFound s
  | some t =>
    if !s.termConfigured t then refuse .notFound s
    else if (s.terminal t).request.isSome then refuse .inUse s
    else
      accept []
        (settleSlot (discardVisit (.terminal t) ((s.setTerminal t false).setTerm t fun _ => TermState.new)))

/-- SHOW TEXT (R57). -/
def processShowText (addr : Byte) (text : List Byte) (s : State) : Verdict :=
  match termOf addr with
  | none => refuse .notFound s
  | some t =>
    if !s.termConfigured t then refuse .notFound s
    else if Config.maxText < text.length || text.any (fun b => (textSymbol b).isNone) then
      refuse .badValue s
    else if (s.terminal t).bus.presence = .lost then refuse .refusedState s
    else if Config.outboxCapacity ≤ (s.terminal t).outbox.length then refuse .full s
    else
      accept [] (s.setTerm t fun v =>
        { v with outbox := v.outbox ++ [{ body := .text text, tag := none }] })

/-! ## The card table's requests -/

/-- A daily limit is absent or 1 to 50,000 (R59). -/
def limitOk : Option Nat → Bool
  | none => true
  | some l => decide (1 ≤ l) && decide (l ≤ Config.maxDailyLimit)

/-- A card record is written through the journal (R66). -/
def journalCard (c : Card) (s : State) : State :=
  journalled { card := .record c, settlement := none, session := .absent } s

/-- ADD CARD (R71). -/
def processAddCard (id : CardId) (cls : Byte) (balance : BitVec 24) (discount : Byte) (limit : BitVec 16)
    (s : State) : Verdict :=
  match CardClass.ofCode cls with
  | none => refuse .badValue s
  | some c =>
    let l := optional16 limit
    if id = 0#64 ∨ Config.maxBalance < balance.toNat ∨ Config.maxDiscount < discount.toNat
        ∨ limitOk l = false then refuse .badValue s
    else if (s.card id).isSome then refuse .duplicate s
    else if Config.cardCapacity ≤ s.ret.cards.length then refuse .full s
    else
      accept [] (journalCard
        { id := id, cls := c, state := .active, balance := balance.toNat, held := 0,
          discount := discount.toNat, limit := l, spent := 0 } s)

/-- CREDIT CARD (R72). -/
def processCreditCard (id : CardId) (amount : BitVec 24) (s : State) : Verdict :=
  match s.card id with
  | none => refuse .notFound s
  | some c =>
    if amount.toNat = 0 ∨ Config.maxBalance < amount.toNat ∨ Config.maxBalance < c.balance + amount.toNat
    then refuse .badValue s
    else accept [] (journalCard { c with balance := c.balance + amount.toNat } s)

/-- DEBIT CARD (R73). -/
def processDebitCard (id : CardId) (amount : BitVec 24) (s : State) : Verdict :=
  match s.card id with
  | none => refuse .notFound s
  | some c =>
    if amount.toNat = 0 ∨ Config.maxBalance < amount.toNat ∨ c.balance < amount.toNat then
      refuse .badValue s
    else if c.balance - amount.toNat < c.held then refuse .inUse s
    else accept [] (journalCard { c with balance := c.balance - amount.toNat } s)

/-- SET CARD (R74). -/
def processSetCard (id : CardId) (cls discount : Byte) (limit : BitVec 16) (s : State) : Verdict :=
  match s.card id with
  | none => refuse .notFound s
  | some c =>
    match CardClass.ofCode cls with
    | none => refuse .badValue s
    | some k =>
      if Config.maxDiscount < discount.toNat ∨ limitOk (optional16 limit) = false then
        refuse .badValue s
      else
        accept [] (journalCard
          { c with cls := k, discount := discount.toNat, limit := optional16 limit } s)

/-- BLOCK CARD and UNBLOCK CARD (R75). -/
def processCardState (id : CardId) (st : CardState) (s : State) : Verdict :=
  match s.card id with
  | none => refuse .notFound s
  | some c => accept [] (journalCard { c with state := st } s)

/-- READ CARD (R76). -/
def processReadCard (id : CardId) (s : State) : Verdict :=
  match s.card id with
  | none => refuse .notFound s
  | some c => accept c.bytes s

/-- REMOVE CARD (R77). -/
def processRemoveCard (id : CardId) (s : State) : Verdict :=
  match s.card id with
  | none => refuse .notFound s
  | some c =>
    if 0 < c.held then refuse .inUse s
    else accept [] (journalled { card := .removal id, settlement := none, session := .absent } s)

/-! ## The heat budget unit's requests -/

/-- Withdraws GRANTED dryers, newest first, while the load still drawn exceeds a pending value (R124), with
a bound on the number withdrawn. -/
def withdrawDryers : Nat → Nat → State → State
  | 0, _, s => s
  | k + 1, n, s =>
    if s.stillDrawn ≤ n then s
    else
      match s.newestDryer with
      | none => s
      | some p => withdrawDryers k n (withdraw p s)

/-- A budget value is applied (R123, R124). -/
def applyBudget (n : Nat) (s : State) : State :=
  if s.committed ≤ n then evaluate (s.write fun r => { r with budget := n, pendingBudget := none })
  else
    let s := s.write fun r => { r with pendingBudget := some n }
    withdrawDryers s.heat.order.length n s

/-- SET BUDGET (R123): the reply carries both budgets as they stand after it. -/
def processSetBudget (value : Byte) (s : State) : Verdict :=
  if Config.maxBudget < value.toNat then refuse .badValue s
  else
    let s := applyBudget value.toNat s
    accept [num1 s.ret.budget, opt1 s.ret.pendingBudget] s

/-- RELEASE HEAT (R137). -/
def processReleaseHeat (addr : Byte) (s : State) : Verdict :=
  match posOf addr with
  | none => refuse .notFound s
  | some p =>
    if !s.configured p then refuse .notFound s
    else if (s.vol p).bus.presence = .lost ∧ (s.vol p).grant = .releasing then
      accept [] (committedFell (endGrant p s))
    else refuse .refusedState s

/-! ## The fault unit's requests -/

/-- The classification that LOAD FAULT CLASS gives, when its codes are in their sets (R142). -/
def readFaultClass (severity policy autoClear : Byte) : Option FaultClass :=
  match Severity.ofCode severity, Policy.ofCode policy, flagOfCode autoClear with
  | some sev, some pol, some auto => some { severity := sev, policy := pol, autoClear := auto }
  | _, _, _ => none

/-- LOAD FAULT CLASS (R142). -/
def processLoadFaultClass (code severity policy autoClear : Byte) (s : State) : Verdict :=
  match readFaultClass severity policy autoClear with
  | none => refuse .badValue s
  | some c =>
    if h : 1 ≤ code.toNat ∧ code.toNat ≤ 15 then
      accept [] (s.write fun r => { r with classes := r.classes.set (code.toNat - 1) c })
    else refuse .badValue s

/-- CLEAR FAULT (R153). -/
def processClearFault (addr : Byte) (s : State) : Verdict :=
  match posOf addr with
  | none => refuse .notFound s
  | some p =>
    match (s.record p).fault with
    | none => refuse .notFound s
    | some f =>
      if !s.configured p then refuse .notFound s
      else if s.causeSeen p f then refuse .refusedState s
      else accept [] (clearActive p s)

/-- READ FAULTS (R158): up to 8 oldest records leave with the reply, and the overflow flag is cleared. -/
def processReadFaults (s : State) : Verdict :=
  let recs := s.ret.faults.take Config.readCount
  accept (num1 recs.length :: flag1 s.ret.overflow :: recs.flatMap FaultRecord.bytes)
    (s.write fun r => { r with faults := r.faults.drop Config.readCount, overflow := false })

/-! ## The settlement queue's requests -/

/-- READ SETTLEMENTS (R164): up to 8 oldest records are copied, and nothing changes. -/
def processReadSettlements (s : State) : Verdict :=
  let recs := s.ret.settlements.take Config.readCount
  accept (num1 s.ret.settlements.length :: num1 recs.length :: recs.flatMap Settlement.bytes) s

/-- The records behind the record numbered `k`, in queue order (R165). -/
def dropThrough (k : Nat) : List Settlement → List Settlement
  | [] => []
  | r :: rest => if r.number = k then rest else dropThrough k rest

/-- RELEASE THROUGH (R165). -/
def processReleaseThrough (k : BitVec 16) (s : State) : Verdict :=
  if k.toNat = 0 ∨ Config.maxSettlementNumber < k.toNat then refuse .badValue s
  else if s.ret.settlements.all (fun r => r.number != k.toNat) then refuse .notFound s
  else
    let s := s.write fun r => { r with settlements := dropThrough k.toNat r.settlements }
    accept [num1 s.ret.settlements.length] s

/-! ## The session table's request -/

/-- The policy of FORCE END: FULL or UNUSED (R117, R196). -/
def forcePolicy (b : Byte) : Option Policy :=
  if b = 0#8 then some .full else if b = 1#8 then some .unused else none

/-- A session is ended by the operator as its state requires (R117). -/
def forceEndSession (p : PosIx) (policy : Policy) (s : State) : State :=
  if s.sessionIs p .starting then cancelSession p .machineNotReady s
  else
    askHalt p (closeSession p { reason := .operator, policy := policy, code := none, safety := false } s)

/-- FORCE END (R117; that NOT_FOUND comes before BAD_VALUE is log entry 15). -/
def processForceEnd (addr policy : Byte) (s : State) : Verdict :=
  match posOf addr with
  | none => refuse .notFound s
  | some p =>
    if !s.configured p || (s.session p).isNone then refuse .notFound s
    else
      match forcePolicy policy with
      | none => refuse .badValue s
      | some pol => accept [] (forceEndSession p pol s)

/-! ## The catalogue -/

/-- Processes a request: it is handed whole to its owning block (R171, section 10-4). A `badFrame` is
answered by the link and changes nothing (R172). -/
def process (r : Request) (s : State) : Verdict :=
  match r with
  | .status => processStatus s
  | .setConfig mask rate jam lost start pause fin slice settle attn =>
    processSetConfig mask rate jam lost start pause fin slice settle attn s
  | .restart => processRestart s
  | .setClock minute second => processSetClock minute second s
  | .loadMachine addr cls heater motor lo hi dflt => processLoadMachine addr cls heater motor lo hi dflt s
  | .removeMachine addr => processRemoveMachine addr s
  | .service addr value => processService addr value s
  | .readMachines mode => processReadMachines mode s
  | .loadTerminal addr => processLoadTerminal addr s
  | .removeTerminal addr => processRemoveTerminal addr s
  | .showText addr text => processShowText addr text s
  | .loadPrice cls program base ph pc n pairs => processLoadPrice cls program base ph pc n pairs s
  | .removePrice cls program => processRemovePrice cls program s
  | .loadBands bands => processLoadBands bands s
  | .addCard id cls balance discount limit => processAddCard id cls balance discount limit s
  | .creditCard id amount => processCreditCard id amount s
  | .debitCard id amount => processDebitCard id amount s
  | .setCard id cls discount limit => processSetCard id cls discount limit s
  | .blockCard id => processCardState id .blocked s
  | .unblockCard id => processCardState id .active s
  | .readCard id => processReadCard id s
  | .removeCard id => processRemoveCard id s
  | .setBudget value => processSetBudget value s
  | .releaseHeat addr => processReleaseHeat addr s
  | .loadFaultClass code severity policy auto => processLoadFaultClass code severity policy auto s
  | .clearFault addr => processClearFault addr s
  | .readFaults => processReadFaults s
  | .readSettlements => processReadSettlements s
  | .releaseThrough k => processReleaseThrough k s
  | .forceEnd addr policy => processForceEnd addr policy s
  | .badFrame _ => refuse .badFrame s

end Sys2Proof.Machine
end

