-- ==== Sys2Proof/Machine/Start.lean ====
section
/-! DEFINITION. Retention and start-up (chapter 11): the start kinds (R187), the cold start (R188), the start
actions (R189 to R191), and how a loss of power or a reset cuts an event short (R183, R192). -/

namespace Sys2Proof.Machine

/-- The gateway rate that the strap pins give (R167). -/
def Pins.rate (p : Pins) : GatewayRate := GatewayRate.ofStraps p.strap1 p.strap0

/-- Every block's volatile state takes its start value (R189). -/
def clearVolatile (kind : StartKind) (s : State) : State :=
  { s with
    clock := { minute := 0, second := 0, valid := false }
    pos := Vector.replicate 24 PosState.new
    term := Vector.replicate 4 TermState.new
    bus := BusState.new
    heat := HeatState.new
    link := LinkState.start s.pins.rate kind }

/-- The end reason of the sessions a start closes (R190). -/
def StartKind.endReason : StartKind → EndReason
  | .warmStart => .powerLoss
  | .resetPin | .restartRequest | .coldStart => .restarted

/-- One session is settled by the start actions (R190). -/
def settleAtStart (reason : EndReason) (s : State) (p : PosIx) : State :=
  match s.session p with
  | none => s
  | some ses =>
    match ses.state with
    | .starting => cancelSession p .machineNoResponse s
    | .running | .paused | .ending => closeSession p (.plain reason) s

/-- Every session is settled in rising order of position (R190). -/
def settleSessions (reason : EndReason) (s : State) : State :=
  allPositions.foldl (settleAtStart reason) s

/-- The held amount of every card is set to 0, outside the journal (R190). -/
def releaseHolds (s : State) : State :=
  s.write fun r => { r with cards := r.cards.map fun c => { c with held := 0 } }

/-- A pending budget becomes the active budget (R191 step 1). -/
def takePendingBudget (s : State) : State :=
  match s.ret.pendingBudget with
  | none => s
  | some n => s.write fun r => { r with budget := n, pendingBudget := none }

/-- SAG is sampled (R191 step 2, R135). -/
def sampleSag (s : State) : State :=
  if s.pins.sag then raiseNotice 23 none none (s.setHeat fun h => { h with sag := .asserted })
  else s.setHeat fun h => { h with sag := .normal }

/-- The start-up HEAT_OFF and the changed flag of each configured position (R191 step 3). -/
def startOrders (s : State) : State :=
  allPositions.foldl (fun s p =>
    let s := if s.configured p then askHeatOff p s else s
    s.setVol p fun v => { v with changed := s.configured p }) s

/-- A start that is not cold (R189 to R191). -/
def warmActions (kind : StartKind) (s : State) : State :=
  let s := clearVolatile kind (rollForward s)
  let s := releaseHolds (settleSessions kind.endReason s)
  let s := startOrders (sampleSag (takePendingBudget s))
  s.setLink fun _ => LinkState.start s.pins.rate kind

/-- A cold start (R188): the store is initialised, retention valid is set, and the volatile values are
taken. -/
def coldActions (s : State) : State :=
  let s := s.write fun _ => Retained.initial
  let s := s.write fun r => { r with valid := true }
  sampleSag (clearVolatile .coldStart s)

/-- A start is taken: its kind is decided by the cause and retention valid (R187). -/
def runStart (kind : StartKind) (s : State) : State :=
  let s := { s with power := { s.power with waiting := false } }
  if s.ret.valid then warmActions kind s else coldActions s

/-- The strap pins take levels. -/
def setStraps (strap1 strap0 : Bool) (s : State) : State :=
  { s with pins := { s.pins with strap1 := strap1, strap0 := strap0 } }

/-- The retained store when the last event was cut before its last `cut` retained writes (R183, R192; log
entry 7). A count above the number of those writes cuts nothing. -/
def State.retainedCut (s : State) (cut : Nat) : Retained :=
  match cut with
  | 0 => s.ret
  | k + 1 => (s.trail[k]?).getD s.ret

/-- The part stops at once (R183, R187): the store stands as the cut leaves it, and a visit ends with BDE
released (R3). -/
def stopAt (cut : Nat) (s : State) : State :=
  { s with ret := s.retainedCut cut, trail := [], bus := { s.bus with visit := none } }

end Sys2Proof.Machine
end

