-- ==== Sys2Proof/Machine/Link.lean ====
section
/-! DEFINITION. The gateway link (chapter 10): the frame receiver (R168, R169), the request buffer and
processing (R170, R171), the transmitter and its flow characters (R173, R174), and the link reset (R175). -/

namespace Sys2Proof.Machine

/-! ## The transmitter -/

/-- The transmitter begins the head frame when it is idle, not HELD, and no flow character is pending
(R173, R174). -/
def startFrame (s : State) : State :=
  if !s.link.sending && !s.link.transmit.isEmpty && !s.link.held && s.link.flow.isNone then
    s.setLink fun l => { l with sending := true }
  else s

/-- A flow character is asked for, in place of any pending one (R173). -/
def askFlow (c : FlowChar) (s : State) : State := s.setLink fun l => { l with flow := some c }

/-- The byte of a flow character (R168). -/
def FlowChar.byte : FlowChar → Byte
  | .hold => holdByte
  | .go => goByte

/-! ## Processing -/

/-- The head of the buffer may be processed (R171, R177): a request waits, the transmit queue has room, and
RESTART has not stopped the link. -/
def State.mayProcess (s : State) : Bool :=
  !s.link.buffer.isEmpty && decide (s.link.transmit.length < Config.transmitCapacity)
    && !s.link.restarting

/-- A reply joins the transmit queue and its request has left the buffer (R171). -/
def placeReply (f : ReplyFrame) (rest : List Waiting) (s : State) : State :=
  s.setLink fun l => { l with buffer := rest, transmit := l.transmit ++ [f] }

/-- The last frame has left the buffer: HOLDING becomes OPEN and GO is asked for (R170). -/
def bufferEmptied (s : State) : State :=
  if s.link.buffer.isEmpty && s.link.holding then
    askFlow .go (s.setLink fun l => { l with holding := false })
  else s

/-- One waiting request is processed (R171): its block decides it, its reply joins the transmit queue, and
it leaves the buffer. -/
def processHead (s : State) : State :=
  match s.link.buffer with
  | [] => s
  | w :: rest =>
    let v := process w.req s
    let f : ReplyFrame := { type := w.type, tag := w.tag, status := v.status, payload := v.payload }
    bufferEmptied (startFrame (placeReply f rest v.state))

/-- Requests are processed while they may be, with a bound on their number. -/
def processFor : Nat → State → State
  | 0, s => s
  | k + 1, s => if s.mayProcess then processFor k (processHead s) else s

/-- Every request that may be processed is processed, in arrival order (R171). -/
def processAll (s : State) : State := processFor s.link.buffer.length s

/-- A received frame reaches the request buffer (R170): discarded when the buffer holds 2, else placed at
the tail; a buffer that becomes full asks for HOLD. -/
def bufferRequest (w : Waiting) (s : State) : State :=
  if Config.bufferCapacity ≤ s.link.buffer.length then s
  else
    let s := s.setLink fun l => { l with buffer := l.buffer ++ [w] }
    if s.link.buffer.length = Config.bufferCapacity then
      askFlow .hold (s.setLink fun l => { l with holding := true })
    else s

/-- A received request frame is taken: placed, then processed if it may be (R170, R171). -/
def takeRequestFrame (w : Waiting) (s : State) : State := processAll (bufferRequest w s)

/-- A request with its tag, as a received frame carries it. -/
def Request.waiting (r : Request) (tag : Byte) : Waiting := { type := Request.type r, tag := tag, req := r }

/-! ## The frame receiver -/

/-- The frame receiver takes a state. -/
def setReceiver (r : Receiver) (s : State) : State := s.setLink fun l => { l with receiver := r }

/-- A HOLD or GO taken while hunting (R174). -/
def takeHold (s : State) : State := s.setLink fun l => { l with held := true }

/-- A GO taken while hunting (R174). -/
def takeGo (s : State) : State := startFrame (s.setLink fun l => { l with held := false })

/-- A byte taken while hunting (R168). -/
def huntByte (b : LineByte) (s : State) : State :=
  if b.framing then s
  else if b.data = syncByte then setReceiver (.assembling []) s
  else if b.data = holdByte then takeHold s
  else if b.data = goByte then takeGo s
  else s

/-- The request of a complete frame: the bytes after SYNC, without a framing error and with a correct CRC;
none when the frame is discarded (R168, R169). -/
def frameRequest (bytes : List LineByte) : Option Waiting :=
  if bytes.any (·.framing) then none
  else
    let data := bytes.map (·.data)
    let body := data.dropLast.dropLast
    if word16 (crc16 body) = data.drop body.length then
      match body with
      | _ :: type :: tag :: payload => some { type := type, tag := tag, req := parseRequest type payload }
      | _ => none
    else none

/-- A length byte in range (R169). -/
def lengthInRange (n : Nat) : Bool := decide (2 ≤ n) && decide (n ≤ 250)

/-- A byte taken while assembling, with the bytes taken before it (R168, R169). DESIGN CHOICE: a length byte out of
range discards the frame at once even if it had a framing error (log entry 38). -/
def assembleByte (old : List LineByte) (b : LineByte) (s : State) : State :=
  let bytes := old ++ [b]
  match bytes with
  | [] => s
  | first :: _ =>
    if !lengthInRange first.data.toNat then setReceiver .hunting s
    else if bytes.length < first.data.toNat + 3 then setReceiver (.assembling bytes) s
    else
      let s := setReceiver .hunting s
      match frameRequest bytes with
      | none => s
      | some w => takeRequestFrame w s

/-- The frame receiver takes a byte (R168, R169, R175). -/
def receiveByte (s : State) (b : LineByte) : State :=
  match s.link.receiver with
  | .hunting => huntByte b s
  | .assembling old => assembleByte old b s
  | .ignoring => s

/-- The frame receiver takes bytes in turn. -/
def receiveBytes (bytes : List LineByte) (s : State) : State := bytes.foldl receiveByte s

/-! ## The end of a frame sent, and the link reset -/

/-- The head of the transmit queue is the reply to a RESTART that was carried out (R177). -/
def State.restartReplyAhead (s : State) : Bool :=
  s.link.transmit.head?.any fun f => f.type == 0x7F#8 && f.status == .ok

/-- The frame being sent has left the queue (R173). -/
def popFrame (s : State) : State :=
  match s.link.transmit with
  | [] => s
  | f :: rest =>
    { s.setLink (fun l => { l with transmit := rest, sending := false }) with lastSent := f.wire.map sentByte }

/-- The last stop bit of the frame being sent has gone (R173, R171); after the RESTART reply the start
begins (R177). -/
def frameSentOnLink (s : State) : State :=
  if s.restartReplyAhead then runStart .restartRequest (popFrame s)
  else startFrame (processAll (startFrame (popFrame s)))

/-- The link is reset (R175, R177). -/
def resetLink (s : State) : State :=
  s.setLink fun l =>
    { l with
      receiver := .ignoring
      buffer := []
      transmit := []
      sending := false
      flow := if l.holding then some .go else none
      holding := false
      held := false
      restarting := false }

end Sys2Proof.Machine
end

