-- ==== Sys2Proof/Machine/ExecRequests.lean ====
section
/-! DEFINITION. The meanings of the gateway request rows (section 10-4). Each is the arrival of that request in a
received frame: it is placed in the request buffer and processed as soon as it may be (R170, R171; log entry
3). -/

namespace Sys2Proof.Machine

/-- An event is taken while the part is live, and begins a new trail of retained writes; while the part is
off, in reset or waiting it takes no event (R183, R187; log entries 7 and 27). -/
def taking (f : State → State) (s : State) : Host.Outcome State Fault Refusal :=
  .next (if s.live then f { s with trail := [] } else s)

/-- A received request frame with a tag. -/
def request (r : Request) (tag : Byte) (s : State) : Host.Outcome State Fault Refusal :=
  taking (takeRequestFrame (Request.waiting r tag)) s

/-- STATUS (R178). -/
def execStatus (tag : Byte) (s : State) : Host.Outcome State Fault Refusal := request .status tag s

/-- SET CONFIG (R176). -/
def execSetConfig (tag : Byte) (mask busRate jamLimit : BitVec 16)
    (lostLimit startLimit pauseLimit doneLimit heatSlice settleTime attnMask : Byte) (s : State) :
    Host.Outcome State Fault Refusal :=
  request (.setConfig mask busRate jamLimit lostLimit startLimit pauseLimit doneLimit heatSlice settleTime
    attnMask) tag s

/-- RESTART (R177). -/
def execRestart (tag : Byte) (s : State) : Host.Outcome State Fault Refusal := request .restart tag s

/-- SET CLOCK (R79). -/
def execSetClock (tag : Byte) (minute : BitVec 16) (second : Byte) (s : State) :
    Host.Outcome State Fault Refusal := request (.setClock minute second) tag s

/-- LOAD MACHINE (R24). -/
def execLoadMachine (tag addr cls heater motor minimum maximum dflt : Byte) (s : State) :
    Host.Outcome State Fault Refusal :=
  request (.loadMachine addr cls heater motor minimum maximum dflt) tag s

/-- REMOVE MACHINE (R25). -/
def execRemoveMachine (tag addr : Byte) (s : State) : Host.Outcome State Fault Refusal :=
  request (.removeMachine addr) tag s

/-- SERVICE (R26). -/
def execService (tag addr value : Byte) (s : State) : Host.Outcome State Fault Refusal :=
  request (.service addr value) tag s

/-- READ MACHINES (R34). -/
def execReadMachines (tag mode : Byte) (s : State) : Host.Outcome State Fault Refusal :=
  request (.readMachines mode) tag s

/-- LOAD TERMINAL (R46). -/
def execLoadTerminal (tag addr : Byte) (s : State) : Host.Outcome State Fault Refusal :=
  request (.loadTerminal addr) tag s

/-- REMOVE TERMINAL (R47). -/
def execRemoveTerminal (tag addr : Byte) (s : State) : Host.Outcome State Fault Refusal :=
  request (.removeTerminal addr) tag s

/-- SHOW TEXT (R57). -/
def execShowText (tag addr : Byte) (text : List Byte) (s : State) : Host.Outcome State Fault Refusal :=
  request (.showText addr text) tag s

/-- LOAD PRICE (R83). -/
def execLoadPrice (tag cls program : Byte) (base ph pc : BitVec 16) (n : Byte)
    (pairs : List (Byte × BitVec 16)) (s : State) : Host.Outcome State Fault Refusal :=
  request (.loadPrice cls program base ph pc n pairs) tag s

/-- REMOVE PRICE (R84). -/
def execRemovePrice (tag cls program : Byte) (s : State) : Host.Outcome State Fault Refusal :=
  request (.removePrice cls program) tag s

/-- LOAD BANDS (R85). -/
def execLoadBands (tag : Byte) (bands : List (BitVec 16 × Byte × Byte)) (s : State) :
    Host.Outcome State Fault Refusal := request (.loadBands bands) tag s

/-- ADD CARD (R71). -/
def execAddCard (tag : Byte) (id : CardId) (cls : Byte) (balance : BitVec 24) (discount : Byte)
    (limit : BitVec 16) (s : State) : Host.Outcome State Fault Refusal :=
  request (.addCard id cls balance discount limit) tag s

/-- CREDIT CARD (R72). -/
def execCreditCard (tag : Byte) (id : CardId) (amount : BitVec 24) (s : State) :
    Host.Outcome State Fault Refusal := request (.creditCard id amount) tag s

/-- DEBIT CARD (R73). -/
def execDebitCard (tag : Byte) (id : CardId) (amount : BitVec 24) (s : State) :
    Host.Outcome State Fault Refusal := request (.debitCard id amount) tag s

/-- SET CARD (R74). -/
def execSetCard (tag : Byte) (id : CardId) (cls discount : Byte) (limit : BitVec 16) (s : State) :
    Host.Outcome State Fault Refusal := request (.setCard id cls discount limit) tag s

/-- BLOCK CARD (R75). -/
def execBlockCard (tag : Byte) (id : CardId) (s : State) : Host.Outcome State Fault Refusal :=
  request (.blockCard id) tag s

/-- UNBLOCK CARD (R75). -/
def execUnblockCard (tag : Byte) (id : CardId) (s : State) : Host.Outcome State Fault Refusal :=
  request (.unblockCard id) tag s

/-- READ CARD (R76). -/
def execReadCard (tag : Byte) (id : CardId) (s : State) : Host.Outcome State Fault Refusal :=
  request (.readCard id) tag s

/-- REMOVE CARD (R77). -/
def execRemoveCard (tag : Byte) (id : CardId) (s : State) : Host.Outcome State Fault Refusal :=
  request (.removeCard id) tag s

/-- SET BUDGET (R123). -/
def execSetBudget (tag value : Byte) (s : State) : Host.Outcome State Fault Refusal :=
  request (.setBudget value) tag s

/-- RELEASE HEAT (R137). -/
def execReleaseHeat (tag addr : Byte) (s : State) : Host.Outcome State Fault Refusal :=
  request (.releaseHeat addr) tag s

/-- LOAD FAULT CLASS (R142). -/
def execLoadFaultClass (tag code severity policy autoClear : Byte) (s : State) :
    Host.Outcome State Fault Refusal := request (.loadFaultClass code severity policy autoClear) tag s

/-- CLEAR FAULT (R153). -/
def execClearFault (tag addr : Byte) (s : State) : Host.Outcome State Fault Refusal :=
  request (.clearFault addr) tag s

/-- READ FAULTS (R158). -/
def execReadFaults (tag : Byte) (s : State) : Host.Outcome State Fault Refusal := request .readFaults tag s

/-- READ SETTLEMENTS (R164). -/
def execReadSettlements (tag : Byte) (s : State) : Host.Outcome State Fault Refusal :=
  request .readSettlements tag s

/-- RELEASE THROUGH (R165). -/
def execReleaseThrough (tag : Byte) (k : BitVec 16) (s : State) : Host.Outcome State Fault Refusal :=
  request (.releaseThrough k) tag s

/-- FORCE END (R117). -/
def execForceEnd (tag addr policy : Byte) (s : State) : Host.Outcome State Fault Refusal :=
  request (.forceEnd addr policy) tag s

/-- A frame of unknown type or disallowed payload length is answered BAD_FRAME (R172, R196); a frame whose
type and length are allowed is the request they spell. -/
def execBadFrame (type tag : Byte) (payload : List Byte) (s : State) : Host.Outcome State Fault Refusal :=
  taking (takeRequestFrame { type := type, tag := tag, req := parseRequest type payload }) s

end Sys2Proof.Machine
end

