-- ==== Sys2Proof/Machine/ExecBus.lean ====
section
/-! DEFINITION. The meanings of the room bus events (chapter 1). An event whose condition does not hold leaves the
state as it is (log entry 4). -/

namespace Sys2Proof.Machine

/-- The turnaround has passed: the sequencer fills the slot and the port begins the visit's frame (R12). -/
def execVisit (s : State) : Host.Outcome State Fault Refusal :=
  taking (fun s => if s.mayVisit then startVisit s else s) s

/-- The visit in progress takes a phase. -/
def setPhase (v : Visit) (ph : VisitPhase) (s : State) : State :=
  s.setBus fun b => { b with visit := some { v with phase := ph } }

/-- The last stop bit of the visit's frame is sent: BDE is released and the reply window opens (R3, R4). -/
def execFrameSent (s : State) : Host.Outcome State Fault Refusal :=
  taking (fun s =>
    match s.bus.visit with
    | none => s
    | some v => if v.phase = .sending then setPhase v .window s else s) s

/-- The reply window closes with nothing in it: the visit is SILENT (R4, R7). -/
def execReplyWindowClose (s : State) : Host.Outcome State Fault Refusal :=
  taking (fun s =>
    match s.bus.visit with
    | none => s
    | some v => if v.phase = .window then concludeVisit v .silent s else s) s

/-- The visit in progress whose reply may go on, with the characters received so far (R4, R5). -/
def State.replying (s : State) : Option (Visit × List BusChar) :=
  if s.bus.listening then
    match s.bus.visit with
    | none => none
    | some v => v.received.map fun old => (v, old)
  else none

/-- Characters of a reply arrive; at its full count the reply ends and is classified (R5, R6, R7; log entry
13). -/
def takeReply (chars : List BusChar) (s : State) : State :=
  match s.replying with
  | none => s
  | some r => receiveChars r.1 r.2 chars s

/-- Characters arrive and the gap limit passes after the last of them (R5): a reply that is not complete
ends DAMAGED. With no character received there is no reply and no gap. -/
def takeGap (chars : List BusChar) (s : State) : State :=
  match s.replying with
  | none => s
  | some r =>
    let all := r.2 ++ chars
    if all.isEmpty then s
    else if replyIsComplete all then receiveChars r.1 r.2 chars s
    else concludeBroken r.1 all true false s

/-- The port takes one break indication and ignores the line (R8); the space goes on being timed (R9). -/
def ignoreLine (s : State) : State :=
  s.setBus fun b => { b with listening := false, space := some (b.space.getD 0) }

/-- Characters arrive and a break follows (R8): inside a window or a reply it ends the reply, which waits
for the receiver to resume; a reply that was complete before it has ended already. DESIGN CHOICE: a space that was
already on the line when BDE was released counts as begun inside the window (log entry 36). -/
def takeBreak (chars : List BusChar) (s : State) : State :=
  if s.bus.listening && s.receiverOn then
    match s.replying with
    | none => ignoreLine s
    | some r =>
      if replyIsComplete (r.2 ++ chars) then ignoreLine (receiveChars r.1 r.2 chars s)
      else ignoreLine (setPhase r.1 (.reply (r.2 ++ chars) true) s)
  else s

/-- The port samples character times: the characters go to the operation, but a break among them is taken as a
break behind the characters before it (R1, R8). -/
def overLine (f : List BusChar → State → State) (times : List BusTime) (s : State) : State :=
  let r := busChars times
  if r.2 then takeBreak r.1 s else f r.1 s

/-- The character times of a reply pass (R1, R5, R7). -/
def execReplyComplete (times : List BusTime) (s : State) : Host.Outcome State Fault Refusal :=
  taking (overLine takeReply times) s

/-- Character times and then the gap limit pass (R1, R5). -/
def execReplyGap (times : List BusTime) (s : State) : Host.Outcome State Fault Refusal :=
  taking (overLine takeGap times) s

/-- Character times and then one at space throughout pass (R1, R8). -/
def execBreak (times : List BusTime) (s : State) : Host.Outcome State Fault Refusal :=
  taking (overLine takeBreak times) s

/-- The receiver listens again (R8, R22). -/
def listenAgain (s : State) : State := s.setBus fun b => { b with listening := true, space := none }

/-- The line has been at mark for 22 bit times: the receiver resumes listening, and a reply ended by a break
is classified (R5, R8, R22). A jam ends by JAM_END (log entry 29). -/
def execReceiverResume (s : State) : Host.Outcome State Fault Refusal :=
  taking (fun s =>
    if s.bus.listening || s.bus.jammed then s
    else
      let s := listenAgain s
      match s.bus.visit with
      | none => s
      | some v =>
        match v.phase with
        | .reply chars true => concludeBroken v chars false true s
        | .reply _ false => s
        | .window => s
        | .sending => s) s

/-- A stretch of space on the line is `ms` long (R9; log entry 12): at the jam limit the bus becomes
JAMMED. -/
def execBusJammed (ms : Nat) (s : State) : Host.Outcome State Fault Refusal :=
  taking (fun s =>
    if s.receiverOn && !s.bus.jammed then checkJam (s.setBus fun b => { b with space := some ms }) else s) s

/-- The jam ends: CLEAR, and the receiver resumes listening (R10). -/
def execJamEnd (s : State) : Host.Outcome State Fault Refusal :=
  taking (fun s =>
    if s.bus.jammed then listenAgain (s.setBus fun b => { b with jammed := false }) else s) s

end Sys2Proof.Machine
end

