-- ==== Sys2Proof/Machine/ExecLink.lean ====
section
/-! DEFINITION. The meanings of the gateway line events (chapter 10). An event whose condition does not hold
leaves the state as it is (log entry 4). -/

namespace Sys2Proof.Machine

/-- A SYNC and the bytes of a frame arrive, sampled from the line (R167, R168, R169, R170; log entry 14). -/
def execGatewayFrameReceived (bytes : List LineTime) (s : State) : Host.Outcome State Fault Refusal :=
  taking (receiveBytes ({ data := syncByte, framing := false } :: lineBytes bytes)) s

/-- The gap limit passes within a frame: the frame is discarded (R169). -/
def execGatewayGap (s : State) : Host.Outcome State Fault Refusal :=
  taking (fun s =>
    match s.link.receiver with
    | .assembling _ => setReceiver .hunting s
    | .hunting => s
    | .ignoring => s) s

/-- HOLD is taken by the hunting receiver (R174). -/
def execHold (s : State) : Host.Outcome State Fault Refusal :=
  taking (fun s => if s.link.receiver = .hunting then takeHold s else s) s

/-- GO is taken by the hunting receiver (R174). -/
def execGo (s : State) : Host.Outcome State Fault Refusal :=
  taking (fun s => if s.link.receiver = .hunting then takeGo s else s) s

/-- The last stop bit of the frame being sent goes out (R173). -/
def execReplyFrameSent (s : State) : Host.Outcome State Fault Refusal :=
  taking (fun s => if s.link.sending then frameSentOnLink s else s) s

/-- The pending flow character is sent between frames (R173); after a link reset it waits for the receiver
to hunt again (R175). -/
def execFlowCharacterSent (s : State) : Host.Outcome State Fault Refusal :=
  taking (fun s =>
    match s.link.flow with
    | none => s
    | some c =>
      if s.link.sending || s.link.receiver == .ignoring then s
      else startFrame { s.setLink (fun l => { l with flow := none }) with lastSent := [sentByte c.byte] }) s

/-- A stretch of space on URX reaches 250 ms (R175). -/
def execLinkReset (s : State) : Host.Outcome State Fault Refusal := taking resetLink s

/-- The line has been at mark as R175 and R181 ask, and the receiver hunts again. -/
def execHuntingResumed (s : State) : Host.Outcome State Fault Refusal :=
  taking (fun s => if s.link.receiver = .ignoring then setReceiver .hunting s else s) s

/-- A SYNC and a length byte out of range arrive: the frame is discarded at once (R169). A length byte in
range is not this event. -/
def execFrameLengthOutOfRange (len : Byte) (s : State) : Host.Outcome State Fault Refusal :=
  taking (fun s =>
    if lengthInRange len.toNat then s
    else receiveBytes [{ data := syncByte, framing := false }, { data := len, framing := false }] s) s

end Sys2Proof.Machine
end

