-- ==== Sys2Proof/Machine/ExecPower.lean ====
section
/-! DEFINITION. The meanings of the supply and reset events (chapter 11). An event whose condition does not hold
leaves the state as it is (log entry 4). The straps that a start samples stand as operands of the rows that
begin one (log entry 9). -/

namespace Sys2Proof.Machine

/-- VDD rises to its operating level (R187): a start begins, or waits for the release of RESET_N. -/
def execPowerUp (strap1 strap0 : Bool) (s : State) : Host.Outcome State Fault Refusal :=
  .next (
    if s.power.vdd then s
    else
      let s := setStraps strap1 strap0
        { s with power := { s.power with vdd := true, waiting := true }, trail := [] }
      if s.power.resetHeld then s else runStart .warmStart s)

/-- RESET_N is asserted (R187); `cut` says how many of the last event's retained writes it came before (log
entry 7). -/
def execResetNAssert (cut : Nat) (s : State) : Host.Outcome State Fault Refusal :=
  .next (
    let s1 := if s.live then stopAt cut s else s
    { s1 with power := { s1.power with resetHeld := true } })

/-- RESET_N is released (R187): with VDD present a start begins, a power-up start where one was waiting. -/
def execResetPin (strap1 strap0 : Bool) (s : State) : Host.Outcome State Fault Refusal :=
  .next (
    if s.power.resetHeld then
      let kind : StartKind := if s.power.waiting then .warmStart else .resetPin
      let s := { s with power := { s.power with resetHeld := false } }
      if s.power.vdd then runStart kind (setStraps strap1 strap0 { s with trail := [] }) else s
    else s)

/-- The last stop bit of the RESTART reply has gone: the RESTART_REQUEST start begins (R177, R187; log
entry 9). -/
def execRestartRequest (strap1 strap0 : Bool) (s : State) : Host.Outcome State Fault Refusal :=
  taking (fun s =>
    if s.link.sending && s.restartReplyAhead then frameSentOnLink (setStraps strap1 strap0 s) else s) s

/-- VDD falls below its operating level (R183): the part stops at once; `cut` as at RESET_N, and `vbakHeld`
whether VBAK stands at its hold level then (R184; log entries 7 and 8). -/
def execVddFall (cut : Nat) (vbakHeld : Bool) (s : State) : Host.Outcome State Fault Refusal :=
  .next (
    if s.power.vdd then
      let s := stopAt cut s
      { s with
        power := { s.power with vdd := false, waiting := false }
        ret := { s.ret with valid := s.ret.valid && vbakHeld } }
    else s)

/-- VBAK falls below its hold level: while VDD is absent the flag becomes invalid; while VDD is present it
is not affected (R184; log entry 8). -/
def execVbakFall (s : State) : Host.Outcome State Fault Refusal :=
  .next (if s.power.vdd then s else { s with ret := { s.ret with valid := false } })

end Sys2Proof.Machine
end

