-- ==== Sys2Proof/Machine/ExecTime.lean ====
section
/-! DEFINITION. The meanings of the time base and of what runs out by it (R78, R98, R107, R133, R135). A limit
runs by TIME_BASE_TICK, and its expiry row acts when no second is left (log entry 5). -/

namespace Sys2Proof.Machine

/-- A limit has run out: it is running and no second is left. -/
def ranOut (l : Option Nat) : Bool := l == some 0

/-- The start limit runs out (R105). -/
def execStartLimitExpiry (p : PosIx) (s : State) : Host.Outcome State Fault Refusal :=
  taking (fun s =>
    if (s.session p).any (fun ses => ses.state == .starting && ranOut ses.startLimit) then
      cancelSession p .machineNoResponse s
    else s) s

/-- The extension limit runs out (R114). -/
def execExtensionLimitExpiry (p : PosIx) (s : State) : Host.Outcome State Fault Refusal :=
  taking (fun s =>
    if (s.session p).any (fun ses => ses.ext.any fun e => ranOut e.limit) then
      extensionFail p .machineNoResponse s
    else s) s

/-- A dryer's pause limit runs out: the session closes ABANDONED and END is asked for (R109); an END refused
at a full queue has no owner left to act (R36). -/
def abandon (p : PosIx) (s : State) : State :=
  let s := closeSession p (.plain .abandoned) s
  if s.queueHasRoom p then appendOrder p (newOrder .finish) s else s

/-- The pause limit runs out (R109). -/
def execPauseLimitExpiry (p : PosIx) (s : State) : Host.Outcome State Fault Refusal :=
  taking (fun s =>
    if (s.session p).any (fun ses => ses.state == .paused && ranOut ses.pauseLimit) then abandon p s
    else s) s

/-- A dryer's done limit runs out: the session closes DONE_TIMEOUT and the fault is raised with its
settlement number (R110). -/
def timeOut (p : PosIx) (s : State) : State :=
  let number := s.ret.nextSettlement
  let s := closeSession p (.plain .doneTimeout) s
  raiseNotice 21 (some p) (some number) s

/-- The done limit runs out (R110). -/
def execDoneLimitExpiry (p : PosIx) (s : State) : Host.Outcome State Fault Refusal :=
  taking (fun s =>
    if (s.session p).any (fun ses => ses.state == .ending && ranOut ses.doneLimit) then timeOut p s
    else s) s

/-- A slice has one second less (R133). -/
def tickSlice (_ : PosIx) (v : PosState) : PosState := { v with slice := tickLimit v.slice }

/-- A settle time has one second less (R135). -/
def Sag.tick : Sag → Sag
  | .settling n => .settling (n - 1)
  | .normal => .normal
  | .asserted => .asserted

/-- One tick of the one-second time base (R78, R98, R107, R133, R135): minutes already due are counted
first (log entry 6), then the clock advances, then the sessions in rising order (log entry 28), the slices
and the settle time. -/
def tick (s : State) : State :=
  let s := allPositions.foldl (fun s p => countMinute p s) s
  let s := advanceClock s
  let s := allPositions.foldl (fun s p => tickSession p s) s
  let s := s.setAllVol tickSlice
  s.setHeat fun h => { h with sag := h.sag.tick }

/-- The one-second time base ticks (R78). -/
def execTimeBaseTick (s : State) : Host.Outcome State Fault Refusal := taking tick s

/-- A meter's 60th second completes a minute (R107, R110). -/
def execMeterMinute (p : PosIx) (s : State) : Host.Outcome State Fault Refusal := taking (countMinute p) s

/-- A slice expires: the grant is withdrawn when a position waits, else the slice begins again (R133). DEDUCED from
R176: it begins again at the length configured at that moment (log entry 39). -/
def expireSlice (p : PosIx) (s : State) : State :=
  if s.heat.queue.isEmpty then s.setVol p fun v => { v with slice := some s.sliceLength }
  else withdraw p s

/-- A dryer's slice runs out (R133). -/
def execSliceExpiry (p : PosIx) (s : State) : Host.Outcome State Fault Refusal :=
  taking (fun s =>
    if (s.vol p).grant == .granted && ranOut (s.vol p).slice then expireSlice p s else s) s

/-- The settle time ends: NORMAL, and granting is evaluated (R135). -/
def execSettleTimeEnd (s : State) : Host.Outcome State Fault Refusal :=
  taking (fun s =>
    if s.heat.sag = .settling 0 then evaluate (s.setHeat fun h => { h with sag := .normal }) else s) s

/-! ## Supply sag -/

/-- A position placed by its rank among positions (log entry 10). -/
def insertByRank (rank : PosIx → Nat) (p : PosIx) : List PosIx → List PosIx
  | [] => [p]
  | q :: rest => if rank p ≤ rank q then p :: q :: rest else q :: insertByRank rank p rest

/-- Positions in rising rank. -/
def sortByRank (rank : PosIx → Nat) : List PosIx → List PosIx
  | [] => []
  | p :: rest => insertByRank rank p (sortByRank rank rest)

/-- SAG is asserted (R134): every GRANTED grant is withdrawn, in an order that the manual leaves open (log
entry 10), and MAINS_SAG is raised. -/
def assertSag (s : State) : State :=
  let held := allPositions.filter fun p => (s.vol p).grant == .granted
  let order := sortByRank (Config.sagRank s.draws) held
  let s := { s.setHeat (fun h => { h with sag := .asserted }) with draws := s.draws + 1 }
  let s := order.foldl (fun s p => withdraw p s) s
  raiseNotice 23 none none s

/-- SAG is released: the settle time begins (R135). -/
def releaseSag (s : State) : State :=
  s.setHeat fun h => { h with sag := if h.sag = .asserted then .settling s.ret.config.settleTime else h.sag }

/-- The SAG pin takes a level. -/
def setSagPin (level : Bool) (s : State) : State := { s with pins := { s.pins with sag := level } }

/-- The SAG input is asserted (R134). The pin is followed while the part is off or in reset too, and sampled
at the start (R191; log entry 11). -/
def execSagAssert (s : State) : Host.Outcome State Fault Refusal :=
  if s.live then taking (fun s => if s.pins.sag then s else assertSag (setSagPin true s)) s
  else .next (setSagPin true s)

/-- The SAG input is released (R135; log entry 11). -/
def execSagRelease (s : State) : Host.Outcome State Fault Refusal :=
  if s.live then taking (fun s => if s.pins.sag then releaseSag (setSagPin false s) else s) s
  else .next (setSagPin false s)

end Sys2Proof.Machine
end

