-- ==== Sys2Proof/Machine/Dispatch.lean ====
section
/-! DEFINITION. The effect of each command on everything but the queue: one arm per row of the table of steps. -/

namespace Sys2Proof.Machine

/-- The effect of a command: one direct call of its meaning. -/
def exec (i : Instr) (s : State) : Host.Outcome State Fault Refusal :=
  match i with
  | .status tag => Sys2Proof.Machine.execStatus tag s
  | .setConfig tag mask busRate jamLimit lostLimit startLimit pauseLimit doneLimit heatSlice settleTime attnMask => Sys2Proof.Machine.execSetConfig tag mask busRate jamLimit lostLimit startLimit pauseLimit doneLimit heatSlice settleTime attnMask s
  | .restart tag => Sys2Proof.Machine.execRestart tag s
  | .setClock tag minute second => Sys2Proof.Machine.execSetClock tag minute second s
  | .loadMachine tag addr cls heater motor minimum maximum dflt => Sys2Proof.Machine.execLoadMachine tag addr cls heater motor minimum maximum dflt s
  | .removeMachine tag addr => Sys2Proof.Machine.execRemoveMachine tag addr s
  | .service tag addr value => Sys2Proof.Machine.execService tag addr value s
  | .readMachines tag mode => Sys2Proof.Machine.execReadMachines tag mode s
  | .loadTerminal tag addr => Sys2Proof.Machine.execLoadTerminal tag addr s
  | .removeTerminal tag addr => Sys2Proof.Machine.execRemoveTerminal tag addr s
  | .showText tag addr text => Sys2Proof.Machine.execShowText tag addr text s
  | .loadPrice tag cls program base ph pc n pairs => Sys2Proof.Machine.execLoadPrice tag cls program base ph pc n pairs s
  | .removePrice tag cls program => Sys2Proof.Machine.execRemovePrice tag cls program s
  | .loadBands tag bands => Sys2Proof.Machine.execLoadBands tag bands s
  | .addCard tag id cls balance discount limit => Sys2Proof.Machine.execAddCard tag id cls balance discount limit s
  | .creditCard tag id amount => Sys2Proof.Machine.execCreditCard tag id amount s
  | .debitCard tag id amount => Sys2Proof.Machine.execDebitCard tag id amount s
  | .setCard tag id cls discount limit => Sys2Proof.Machine.execSetCard tag id cls discount limit s
  | .blockCard tag id => Sys2Proof.Machine.execBlockCard tag id s
  | .unblockCard tag id => Sys2Proof.Machine.execUnblockCard tag id s
  | .readCard tag id => Sys2Proof.Machine.execReadCard tag id s
  | .removeCard tag id => Sys2Proof.Machine.execRemoveCard tag id s
  | .setBudget tag value => Sys2Proof.Machine.execSetBudget tag value s
  | .releaseHeat tag addr => Sys2Proof.Machine.execReleaseHeat tag addr s
  | .loadFaultClass tag code severity policy autoClear => Sys2Proof.Machine.execLoadFaultClass tag code severity policy autoClear s
  | .clearFault tag addr => Sys2Proof.Machine.execClearFault tag addr s
  | .readFaults tag => Sys2Proof.Machine.execReadFaults tag s
  | .readSettlements tag => Sys2Proof.Machine.execReadSettlements tag s
  | .releaseThrough tag k => Sys2Proof.Machine.execReleaseThrough tag k s
  | .forceEnd tag addr policy => Sys2Proof.Machine.execForceEnd tag addr policy s
  | .badFrame type tag payload => Sys2Proof.Machine.execBadFrame type tag payload s
  | .gatewayFrameReceived bytes => Sys2Proof.Machine.execGatewayFrameReceived bytes s
  | .gatewayGap => Sys2Proof.Machine.execGatewayGap s
  | .hold => Sys2Proof.Machine.execHold s
  | .go => Sys2Proof.Machine.execGo s
  | .replyFrameSent => Sys2Proof.Machine.execReplyFrameSent s
  | .flowCharacterSent => Sys2Proof.Machine.execFlowCharacterSent s
  | .linkReset => Sys2Proof.Machine.execLinkReset s
  | .visit => Sys2Proof.Machine.execVisit s
  | .frameSent => Sys2Proof.Machine.execFrameSent s
  | .replyWindowClose => Sys2Proof.Machine.execReplyWindowClose s
  | .replyComplete chars => Sys2Proof.Machine.execReplyComplete chars s
  | .replyGap chars => Sys2Proof.Machine.execReplyGap chars s
  | .breakIndication chars => Sys2Proof.Machine.execBreak chars s
  | .receiverResume => Sys2Proof.Machine.execReceiverResume s
  | .busJammed ms => Sys2Proof.Machine.execBusJammed ms s
  | .jamEnd => Sys2Proof.Machine.execJamEnd s
  | .startLimitExpiry p => Sys2Proof.Machine.execStartLimitExpiry p s
  | .extensionLimitExpiry p => Sys2Proof.Machine.execExtensionLimitExpiry p s
  | .pauseLimitExpiry p => Sys2Proof.Machine.execPauseLimitExpiry p s
  | .doneLimitExpiry p => Sys2Proof.Machine.execDoneLimitExpiry p s
  | .timeBaseTick => Sys2Proof.Machine.execTimeBaseTick s
  | .meterMinute p => Sys2Proof.Machine.execMeterMinute p s
  | .sliceExpiry p => Sys2Proof.Machine.execSliceExpiry p s
  | .sagAssert => Sys2Proof.Machine.execSagAssert s
  | .sagRelease => Sys2Proof.Machine.execSagRelease s
  | .settleTimeEnd => Sys2Proof.Machine.execSettleTimeEnd s
  | .powerUp strap1 strap0 => Sys2Proof.Machine.execPowerUp strap1 strap0 s
  | .resetNAssert cut => Sys2Proof.Machine.execResetNAssert cut s
  | .resetPin strap1 strap0 => Sys2Proof.Machine.execResetPin strap1 strap0 s
  | .restartRequest strap1 strap0 => Sys2Proof.Machine.execRestartRequest strap1 strap0 s
  | .vddFall cut vbakHeld => Sys2Proof.Machine.execVddFall cut vbakHeld s
  | .vbakFall => Sys2Proof.Machine.execVbakFall s
  | .huntingResumed => Sys2Proof.Machine.execHuntingResumed s
  | .frameLengthOutOfRange len => Sys2Proof.Machine.execFrameLengthOutOfRange len s

end Sys2Proof.Machine
end

