-- ==== Sys2Proof/WellFormed.lean ====
section
/-! DEFINITION. Which commands an agent outside the part can send: a request fits a frame, a bad frame is bad, a
received frame has the length its length byte gives, and each character time holds a character. -/

namespace Sys2Proof

open Machine

/-- The longest request payload: a frame length of 250 less type and tag (R167). -/
def maxRequestPayload : Nat := 248

/-- The request's counts fit their bytes and its payload fits a frame (R167, R196). A `badFrame` is no
request of the catalogue. -/
def Request.wf (r : Request) : Bool :=
  match r with
  | .showText _ text => decide (2 + text.length ≤ maxRequestPayload)
  | .loadPrice _ _ _ _ _ _ pairs => decide (10 + 3 * pairs.length ≤ maxRequestPayload)
  | .loadBands bands => decide (1 + 4 * bands.length ≤ maxRequestPayload)
  | .badFrame _ => false
  | .status | .setConfig .. | .restart | .setClock .. | .loadMachine .. | .removeMachine .. | .service ..
  | .readMachines .. | .loadTerminal .. | .removeTerminal .. | .removePrice .. | .addCard ..
  | .creditCard .. | .debitCard .. | .setCard .. | .blockCard .. | .unblockCard .. | .readCard ..
  | .removeCard .. | .setBudget .. | .releaseHeat .. | .loadFaultClass .. | .clearFault .. | .readFaults
  | .readSettlements | .releaseThrough .. | .forceEnd .. => true

/-- Character times that each hold a character: a start bit, and not a break (R1). -/
def allCharacters (times : List BusTime) : Bool := times.all fun t => startsAt t && !isBreak t

/-- The bytes after SYNC of a complete frame: as many as its length byte gives, and two CRC bytes (R168). -/
def completeFrame (bytes : List LineByte) : Bool :=
  match bytes with
  | [] => false
  | first :: _ =>
    decide (2 ≤ first.data.toNat) && decide (first.data.toNat ≤ 250)
      && decide (bytes.length = first.data.toNat + 3)

/-- A command that an agent outside the part can send. -/
def Instr.wf (i : Instr) : Bool :=
  match i with
  | .showText _ addr text => Request.wf (.showText addr text)
  | .loadPrice _ cls program base ph pc n pairs => Request.wf (.loadPrice cls program base ph pc n pairs)
  | .loadBands _ bands => Request.wf (.loadBands bands)
  | .badFrame type _ payload =>
    decide (payload.length ≤ maxRequestPayload) && parseRequest type payload == .badFrame type
  | .gatewayFrameReceived bytes => bytes.all (fun t => startsAt t) && completeFrame (lineBytes bytes)
  | .replyComplete chars => !chars.isEmpty && allCharacters chars
  | .replyGap chars => allCharacters chars
  | .breakIndication chars => allCharacters chars
  | .frameLengthOutOfRange len => decide (len.toNat < 2) || decide (250 < len.toNat)
  | .status .. | .setConfig .. | .restart .. | .setClock .. | .loadMachine .. | .removeMachine ..
  | .service .. | .readMachines .. | .loadTerminal .. | .removeTerminal .. | .removePrice .. | .addCard ..
  | .creditCard .. | .debitCard .. | .setCard .. | .blockCard .. | .unblockCard .. | .readCard ..
  | .removeCard .. | .setBudget .. | .releaseHeat .. | .loadFaultClass .. | .clearFault .. | .readFaults ..
  | .readSettlements .. | .releaseThrough .. | .forceEnd .. => true
  | .gatewayGap | .hold | .go | .replyFrameSent | .flowCharacterSent | .linkReset | .visit | .frameSent
  | .replyWindowClose | .receiverResume | .busJammed .. | .jamEnd | .startLimitExpiry ..
  | .extensionLimitExpiry .. | .pauseLimitExpiry .. | .doneLimitExpiry .. | .timeBaseTick | .meterMinute ..
  | .sliceExpiry .. | .sagAssert | .sagRelease | .settleTimeEnd | .powerUp .. | .resetNAssert ..
  | .resetPin .. | .restartRequest .. | .vddFall .. | .vbakFall | .huntingResumed => true

end Sys2Proof
end

