-- ==== Sys2Proof/Safety.lean ====
section
/-! DEFINITION. The words of the statements: when the link answers a request at once and what an answer adds to the
state, the row of a request, the frames that carry requests and replies, and the laws that every step keeps. -/

namespace Sys2Proof.Machine

/-! ## Requests and their answers -/

/-- The gateway link takes a request and answers it at once (R170, R171, R173): the part is live, no request
waits, the transmit queue has room, RESTART has not stopped processing, and the receive hold state is OPEN. -/
abbrev LinkReady (s : State) : Prop :=
  s.live = true ∧ s.link.buffer = [] ∧ s.link.transmit.length < Config.transmitCapacity
    ∧ s.link.restarting = false ∧ s.link.holding = false

/-- The state with one more reply frame in the transmit queue. An idle transmitter that is not held and has no
flow character to send begins it (R171, R173). -/
def State.answered (f : ReplyFrame) (s : State) : State :=
  { s with link :=
    { s.link with
      transmit := s.link.transmit ++ [f]
      sending := s.link.sending || (!s.link.held && s.link.flow.isNone) } }

/-- The state after a request that is refused with a status: its reply and nothing else (R172). -/
def State.refusedWith (s : State) (type tag : Byte) (st : Status) : State :=
  { s with trail := [] }.answered { type := type, tag := tag, status := st, payload := [] }

/-- The state after a request that is carried out, with its reply queued (R171, R172). -/
def State.replied (s : State) (type tag : Byte) (payload : List Byte) : State :=
  s.answered { type := type, tag := tag, status := .ok, payload := payload }

/-- The state as the owning block of a request finds it: the request is the one frame of the buffer (R171). -/
def State.heard (r : Request) (tag : Byte) (s : State) : State :=
  { s with trail := [], link := { s.link with buffer := [Request.waiting r tag] } }

/-- The row of the table of steps for a request. The payload of a frame that is no request is not kept in the
request, and here it is empty. -/
def Request.row (tag : Byte) : Request → Instr
  | .status => .status tag
  | .setConfig mask rate jam lost start pause fin slice settle attn =>
    .setConfig tag mask rate jam lost start pause fin slice settle attn
  | .restart => .restart tag
  | .setClock minute second => .setClock tag minute second
  | .loadMachine addr cls heater motor lo hi dflt => .loadMachine tag addr cls heater motor lo hi dflt
  | .removeMachine addr => .removeMachine tag addr
  | .service addr value => .service tag addr value
  | .readMachines mode => .readMachines tag mode
  | .loadTerminal addr => .loadTerminal tag addr
  | .removeTerminal addr => .removeTerminal tag addr
  | .showText addr text => .showText tag addr text
  | .loadPrice cls program base ph pc n pairs => .loadPrice tag cls program base ph pc n pairs
  | .removePrice cls program => .removePrice tag cls program
  | .loadBands bands => .loadBands tag bands
  | .addCard id cls balance discount limit => .addCard tag id cls balance discount limit
  | .creditCard id amount => .creditCard tag id amount
  | .debitCard id amount => .debitCard tag id amount
  | .setCard id cls discount limit => .setCard tag id cls discount limit
  | .blockCard id => .blockCard tag id
  | .unblockCard id => .unblockCard tag id
  | .readCard id => .readCard tag id
  | .removeCard id => .removeCard tag id
  | .setBudget value => .setBudget tag value
  | .releaseHeat addr => .releaseHeat tag addr
  | .loadFaultClass code severity policy auto => .loadFaultClass tag code severity policy auto
  | .clearFault addr => .clearFault tag addr
  | .readFaults => .readFaults tag
  | .readSettlements => .readSettlements tag
  | .releaseThrough k => .releaseThrough tag k
  | .forceEnd addr policy => .forceEnd tag addr policy
  | .badFrame type => .badFrame type tag []

/-- Where a change of configuration leaves the slot: it moves on from a kind that has no configured node to the next
place of the other kind (R12; log entry 16). -/
def settledSlot (slot : Slot) (machines terminals : Bool) : Slot :=
  match slot, machines, terminals with
  | .terminal, true, false => .machine1
  | .machine1, false, true => .terminal
  | .machine2, false, true => .terminal
  | slot, _, _ => slot

/-- The bytes that follow SYNC in a request's frame, as the line carries them (R167, R196). -/
def Request.line (tag : Byte) (r : Request) : List LineTime :=
  (requestBytes (Request.type r) tag (Request.payload r)).map sentByte

/-- The state after a visit has ended with its class, before the sequencer acts on it (R7). -/
def State.visitEnded (s : State) : State :=
  { s with trail := [], bus := { s.bus with visit := none, space := none } }

/-- The characters of a visit's reply so far: none while its window is open, and those received while its reply
goes on unbroken (R4, R5). -/
def Visit.hasReceived (v : Visit) (old : List BusChar) : Prop :=
  (v.phase = .window ∧ old = []) ∨ v.phase = .reply old false

/-- The characters of a reply from a node: its address with the direction bit and the mark bit, the kind, the
length, the payload and the CRC over the three, none with a framing error (R1, R3, R6, R193). -/
def replyChars (node : Node) (kind : Byte) (payload : List Byte) : List BusChar :=
  let body := kind :: num1 payload.length :: payload
  { data := num1 (node.address + 128), mark := true, framing := false }
    :: (body ++ word16 (crc16 body)).map fun b => { data := b, mark := false, framing := false }

/-- Only the card table changed, through the journal, and the answer was queued (R66, R171). -/
def CardsChanged (s t : State) (f : ReplyFrame) : Prop :=
  t = { s with trail := t.trail, ret := { s.ret with cards := t.ret.cards, journal := none } }.answered f

/-! ## Sessions that end -/

/-- From `s` to `t` only what a session's end may touch changed: cards, sessions, settlement records and the budgets,
the positions' queues and grants, and the terminals' outboxes. -/
def RoomStep (s t : State) : Prop :=
  t = { s with
    trail := t.trail
    pos := t.pos
    term := t.term
    heat := { s.heat with queue := t.heat.queue, order := t.heat.order }
    ret := { s.ret with
      cards := t.ret.cards, sessions := t.ret.sessions, settlements := t.ret.settlements
      nextSettlement := t.ret.nextSettlement, journal := t.ret.journal
      budget := t.ret.budget, pendingBudget := t.ret.pendingBudget } }

/-- The same, but for one fault record. -/
def RoomStepAndFault (s t : State) : Prop :=
  RoomStep s { t with ret := { t.ret with
    faults := s.ret.faults, nextFault := s.ret.nextFault, overflow := s.ret.overflow } }

/-- The session of a position is gone and every other session stands. -/
def SessionGone (s t : State) (p : PosIx) : Prop :=
  t.session p = none ∧ (∀ q, q ≠ p → t.session q = s.session q) ∧ (t.vol p).changed = true

/-- One card's record took a change, if the table holds it, and every other record stands (R66, R70). -/
def CardTook (s t : State) (id : CardId) (f : Card → Card) : Prop :=
  t.card id = (s.card id).map f ∧ ∀ j, j ≠ id → t.card j = s.card j

/-- The settlement record of a close stands newest in its queue, with the next settlement number, and that number
has moved on (R119 step 3, R160, R161). -/
def RecordSettled (s t : State) (p : PosIx) (ses : Session) (charge : Nat) (reason : EndReason)
    (code : Option Nat) : Prop :=
  t.ret.settlements = s.ret.settlements ++
      [{ number := s.ret.nextSettlement, position := p, cclass := ses.cclass, program := ses.program,
         cardId := ses.cardId, startMinute := ses.startMinute, m := ses.m, d := ses.d,
         purchased := ses.purchased, heated := ses.heated, cool := ses.cool, elapsed := ses.elapsed,
         hold := ses.hold, charged := charge, reason := reason, faultCode := code }]
    ∧ t.ret.nextSettlement = if 65534 ≤ s.ret.nextSettlement then 1 else s.ret.nextSettlement + 1

/-- The next settlement number is not the newest record's, so that a record with it is appended (R161, R162). -/
def NumberFree (s : State) : Prop :=
  ∀ x, s.ret.settlements.getLast? = some x → x.number ≠ s.ret.nextSettlement

/-- A close: the session is gone, its charge left the card and its hold is released, and its record stands (R69,
R119). -/
def SessionClosed (s t : State) (p : PosIx) (ses : Session) (charge : Nat) (reason : EndReason)
    (code : Option Nat) : Prop :=
  SessionGone s t p ∧ RecordSettled s t p ses charge reason code
    ∧ CardTook s t ses.cardId fun c =>
        { c with
          balance := c.balance - charge
          held := c.held - ses.hold
          spent := min (c.spent + charge) 999999 }

/-- A cancellation: the session and its hold are gone, and no settlement or fault record is made (R68, R102). -/
def SessionCancelled (s t : State) (p : PosIx) (ses : Session) : Prop :=
  SessionGone s t p ∧ t.ret.settlements = s.ret.settlements
    ∧ t.ret.nextSettlement = s.ret.nextSettlement ∧ t.ret.faults = s.ret.faults
    ∧ CardTook s t ses.cardId fun c => { c with held := c.held - ses.hold }

/-- A DECLINE stands in a terminal's outbox wherever R52 admits it and the outbox has room; its available balance
is the card's after the change (R58). -/
def Declined (s t : State) (term : TermIx) (reqTag : Byte) (reason : DeclineReason) (id : CardId) : Prop :=
  s.admitsAnswer term reqTag = true → (s.terminal term).outbox.length < 4 →
    { body := .answer
        { reqTag := reqTag, decline := some reason, amount := 0, minutes := 0, options := 0#4,
          available := t.available id } false
      tag := none } ∈ (t.terminal term).outbox

/-! ## The laws of the heat budget unit -/

/-- The grant queue and the grant order hold exactly the QUEUED and the GRANTED positions, each once (R125, R126);
only a configured position has a session or a grant (R97, R125); committed load is within the active budget
(R120); and no grant is GRANTED while SAG is asserted or its settle time runs (R127, R134). -/
abbrev HeatLaw (s : State) : Prop :=
  s.heat.queue.Nodup ∧ (∀ p, p ∈ s.heat.queue ↔ (s.vol p).grant = .queued)
    ∧ s.heat.order.Nodup ∧ (∀ p, p ∈ s.heat.order ↔ (s.vol p).grant = .granted)
    ∧ (∀ p, ((s.session p).isSome = true ∨ (s.vol p).grant ≠ .none) → s.configured p = true)
    ∧ s.committed ≤ s.ret.budget
    ∧ (s.heat.sag ≠ .normal → ∀ p, (s.vol p).grant ≠ .granted)

/-! ## The laws of the queues -/

/-- An order queue as the part keeps it: at most 4 orders, only the head in delivery, at most one undelivered HALT
and at most one undelivered HEAT_OFF (R16, R36, R37, R38, R40). -/
abbrev QueueLaw (q : List Order) : Prop :=
  q.length ≤ Config.orderCapacity
    ∧ (∀ o ∈ q.tail, o.tag = none)
    ∧ q.countP (fun o => o.undelivered && o.body == .halt) ≤ 1
    ∧ q.countP (fun o => o.undelivered && o.body == .heatOff) ≤ 1

/-- An outbox as the part keeps it: at most 4 items, only the head in delivery, and behind an undelivered TEXT
nothing but TEXTs (R16, R45, R54). -/
abbrev OutboxLaw (box : List Item) : Prop :=
  box.length ≤ Config.outboxCapacity
    ∧ (∀ i ∈ box.tail, i.tag = none)
    ∧ box.Pairwise (fun a b => a.waitingText = true → b.isText = true)

/-- An order queue after a HEAT_OFF that removes nothing: it is merged into an undelivered HEAT_OFF, or takes its place
(R38 steps 2 and 3). -/
def withHeatOff (q : List Order) : List Order :=
  if q.any fun o => o.tag.isNone && o.body == .heatOff then q
  else insertHeatOff { body := .heatOff, owned := true, tag := none } q

/-! ## The laws of the retained store -/

/-- The store as the roll-forward of a start leaves it: a WRITTEN entry is applied whole (R186). -/
def Retained.settled (r : Retained) : Retained :=
  match r.journal with
  | none => r
  | some e => { applyEntry e r with journal := none }

/-- The number of open sessions of a store. -/
def Retained.openSessions (r : Retained) : Nat :=
  (allPositions.filter fun p => r.sessions[p.val].isSome).length

/-- The tables and queues of the store hold no more than they may, the card and price tables stand in their
canonical order (log entry 24), and open sessions and settlement records number at most 64 together (R59, R82, R85,
R155, R163). -/
abbrev StoreLaw (r : Retained) : Prop :=
  r.cards.length ≤ Config.cardCapacity
    ∧ r.cards.Pairwise (fun a b => a.id.toNat < b.id.toNat)
    ∧ r.prices.length ≤ Config.priceCapacity
    ∧ r.prices.Pairwise (fun a b => a.rank < b.rank)
    ∧ (∀ e ∈ r.prices, 1 ≤ e.program ∧ e.program ≤ 15)
    ∧ r.bands.length ≤ Config.bandCapacity
    ∧ r.faults.length ≤ Config.faultCapacity
    ∧ r.openSessions + r.settlements.length ≤ Config.settlementCapacity

/-- Every queue and table of the part keeps its law; the store does so at each of the last event's retained writes,
once its journal is settled, so that a cut leaves it so; and a live part's journal is EMPTY (R66, R183, R186). -/
abbrev CapacityLaw (s : State) : Prop :=
  (∀ p, QueueLaw (s.vol p).orders) ∧ (∀ t, OutboxLaw (s.terminal t).outbox)
    ∧ s.link.buffer.length ≤ Config.bufferCapacity ∧ s.link.transmit.length ≤ Config.transmitCapacity
    ∧ (s.live = true → s.ret.journal = none)
    ∧ ∀ r ∈ s.ret :: s.trail, StoreLaw r.settled

/-! ## The laws of money -/

/-- What the open sessions set aside of a card. -/
def Retained.holdsOf (r : Retained) (id : CardId) : Nat :=
  (allPositions.map fun p =>
    match r.sessions[p.val] with
    | none => 0
    | some ses => if ses.cardId = id then ses.hold else 0).sum

/-- A session's hold covers what it may be charged: the washer price, or the price of the purchased minutes, and the
increment of an open extension; and a dryer counts no minute beyond those purchased (R90 to R95, R112). -/
abbrev Session.Covered (ses : Session) : Prop :=
  ses.d ≤ Config.maxDiscount ∧ ses.pc ≤ ses.ph
    ∧ ses.hold = ses.wholeCharge + (ses.ext.map (·.hold)).getD 0
    ∧ (ses.mclass = .washer → ses.ext = none)
    ∧ (ses.mclass = .dryer → ses.heated + ses.cool = ses.elapsed ∧ ses.elapsed ≤ ses.purchased)
    ∧ ∀ e, ses.ext = some e →
      1 ≤ e.minutes ∧ ses.holdFor ses.purchased + e.hold = ses.holdFor (ses.purchased + e.minutes)

/-- A dryer's meter stops at the minutes purchased: it is below them while it may count, and at them it holds or the
session is ENDING (R110). -/
abbrev Session.Metered (ses : Session) : Prop :=
  ses.mclass = .dryer →
    if ses.holding = true ∨ ses.state = .ending then ses.minuteDue = false ∧ ses.elapsed = ses.purchased
    else ses.elapsed < ses.purchased

/-- The two laws of R61 for a store, with what they rest on: discounts are at most 90, a dryer's cool rate is at most
its heated rate, its purchase limits are above 0, and every open session is covered by its hold (R23, R59, R61, R83). -/
def MoneyLaw (r : Retained) : Prop :=
  (∀ c ∈ r.cards, c.held ≤ c.balance ∧ c.discount ≤ Config.maxDiscount)
    ∧ r.cards.Pairwise (fun a b => a.id.toNat < b.id.toNat)
    ∧ (∀ id, ((r.cards.find? fun c => c.id == id).map (·.held)).getD 0 = r.holdsOf id)
    ∧ (∀ e ∈ r.prices, e.pc ≤ e.ph)
    ∧ (∀ (p : PosIx) cfg, r.positions[p.val].config = some cfg → cfg.cls = .dryer →
      1 ≤ cfg.purchase.minimum ∧ 1 ≤ cfg.purchase.dflt ∧ 1 ≤ cfg.purchase.maximum)
    ∧ ∀ (p : PosIx) ses, r.sessions[p.val] = some ses → ses.Covered

/-- The laws of money hold at each of the last event's retained writes, once its journal is settled, so that no cut
breaks them; and while the part is live its journal is EMPTY and its meters are in bounds (R61, R66, R183, R186). -/
def LedgerLaw (s : State) : Prop :=
  (∀ r ∈ s.ret :: s.trail, MoneyLaw r.settled)
    ∧ (s.live = true → s.ret.journal = none ∧ ∀ p ses, s.session p = some ses → ses.Metered)

end Sys2Proof.Machine
end

