-- ==== Sys2Proof/Certificates/Slice0/Obligations.lean ====
section
/-! DEFINITION. The statements for the provers. Each docstring names the rules it formalises. -/

open Sys2Proof Sys2Proof.Machine

/-! ## The queue of commands and the gateway link -/

/-- The block takes the command at the front of its queue and runs it on the rest; with no command it idles (log entry
2). -/
def Obligations.StepRunsFrontCommand : Prop :=
  (∀ (c : Instr) (rest : List Instr) (s : State),
    step { s with pending := c :: rest } = exec c { s with pending := rest })
  ∧ ∀ s : State, s.pending = [] → step s = .next s

/-- A request that reaches a ready link is handed whole to its owning block; its reply joins the transmit queue and it
leaves the buffer (R171). It says so for every request row. Choice of the model in it: log entry 3. -/
def Obligations.RequestAnsweredAtOnce : Prop :=
  ∀ (r : Request) (tag : Byte) (s : State), Request.wf r = true → LinkReady s →
    let v := process r (s.heard r tag)
    exec (Request.row tag r) s
      = .next ({ v.state with link := { v.state.link with buffer := [] } }.answered
          { type := Request.type r, tag := tag, status := v.status, payload := v.payload })

/-- A request that cannot be processed waits in the buffer of two places: the second makes the link HOLDING and asks
for HOLD, a third is discarded (R170, R171, R177). Choices of the model in it: log entries 3 and 7. -/
def Obligations.RequestWaitsInBuffer : Prop :=
  ∀ (r : Request) (tag : Byte) (s : State), Request.wf r = true → s.live = true →
    (Config.transmitCapacity ≤ s.link.transmit.length ∨ s.link.restarting = true) →
    let w : Waiting := { type := Request.type r, tag := tag, req := r }
    (s.link.buffer = [] →
      exec (Request.row tag r) s = .next { s with trail := [], link := { s.link with buffer := [w] } })
    ∧ (∀ x, s.link.buffer = [x] →
      exec (Request.row tag r) s
        = .next { s with
            trail := []
            link := { s.link with buffer := [x, w], holding := true, flow := some .hold } })
    ∧ (2 ≤ s.link.buffer.length → exec (Request.row tag r) s = .next { s with trail := [] })

/-- A frame that carries a request, taken by a hunting receiver, is that request's row: SYNC, length, type, tag,
payload and CRC are all read (R168, R170, R196). A byte takes 10 positions on the line: a start bit at space, its 8
bits low bit first, and a stop position, which is at space where the byte has a framing error (R167, R168). Choices of
the model in it: log entries 3 and 14. -/
def Obligations.ReceivedFrameIsItsRequest : Prop :=
  (∀ (r : Request) (tag : Byte) (s : State), Request.wf r = true → s.live = true →
    s.link.receiver = .hunting →
    ∃ t, exec (.gatewayFrameReceived (Request.line tag r)) s = .next t
      ∧ exec (Request.row tag r) s = .next t)
  ∧ (∀ b : LineByte, let t := byteTime b
    t.getLsbD 0 = false ∧ (∀ i < 8, t.getLsbD (i + 1) = b.data.getLsbD i) ∧ t.getLsbD 9 = !b.framing)
  ∧ ∀ (t : LineTime) (rest : List LineTime),
    (t.getLsbD 0 = true → lineBytes (t :: rest) = lineBytes rest)
    ∧ (t.getLsbD 0 = false → ∃ b, lineBytes (t :: rest) = b :: lineBytes rest
      ∧ (∀ i < 8, b.data.getLsbD i = t.getLsbD (i + 1)) ∧ b.framing = !t.getLsbD 9)

/-- A frame whose bytes all came but whose CRC is wrong, or one of whose bytes had a framing error, is discarded with
no reply and changes nothing; so is one whose length byte is out of range, or in which a gap passes (R169). Choices of
the model in it: log entries 7 and 14. -/
def Obligations.FaultyFrameDiscarded : Prop :=
  ∀ s : State, s.live = true →
    (∀ times : List LineTime, let bytes := lineBytes times
      completeFrame bytes = true → s.link.receiver = .hunting →
      (bytes.any (·.framing) = true ∨
        word16 (crc16 ((bytes.map (·.data)).take (bytes.length - 2)))
          ≠ (bytes.map (·.data)).drop (bytes.length - 2)) →
      exec (.gatewayFrameReceived times) s = .next { s with trail := [] })
    ∧ (∀ len : Byte, (len.toNat < 2 ∨ 250 < len.toNat) → s.link.receiver = .hunting →
      exec (.frameLengthOutOfRange len) s = .next { s with trail := [] })
    ∧ (∀ got, s.link.receiver = .assembling got →
      exec .gatewayGap s = .next { s with trail := [], link := { s.link with receiver := .hunting } })

/-- HOLD and GO set and release the transmit hold state while the receiver hunts, and GO begins the next frame; the
receiver hunts again after the line has been at mark (R174, R175, R181). The pending flow character goes out between
frames, HELD or not, and then the next frame begins (R168, R173). A stretch of space of 250 ms resets the link: every
request, reply and flow character is dropped, a HOLDING link becomes OPEN and asks for GO, and nothing outside the
link is touched (R175, R177). Choices of the model in it: log entries 4, 7 and 25. -/
def Obligations.GatewayLineRows : Prop :=
  (∀ s : State, s.live = true →
      (s.link.receiver = .hunting →
        exec .hold s = .next { s with trail := [], link := { s.link with held := true } }
        ∧ exec .go s = .next { s with
            trail := []
            link := { s.link with
              held := false
              sending := s.link.sending || (!s.link.transmit.isEmpty && s.link.flow.isNone) } })
      ∧ (s.link.receiver = .ignoring →
        exec .huntingResumed s
          = .next { s with trail := [], link := { s.link with receiver := .hunting } }))
  ∧ (∀ (s : State) (c : FlowChar), s.live = true → s.link.flow = some c → s.link.sending = false →
      s.link.receiver ≠ .ignoring →
      exec .flowCharacterSent s = .next { s with
        trail := []
        lastSent := [sentByte (if c = .hold then 0xF3#8 else 0xF1#8)]
        link := { s.link with flow := none, sending := !s.link.transmit.isEmpty && !s.link.held } })
  ∧ (∀ s : State, s.live = true →
      exec .linkReset s = .next { s with
        trail := []
        link :=
          { receiver := .ignoring, buffer := [], transmit := [], sending := false,
            flow := if s.link.holding then some .go else none,
            holding := false, held := false, restarting := false, rate := s.link.rate,
            cause := s.link.cause, restarted := s.link.restarted } })

/-- When the last stop bit of a reply that is no RESTART reply has gone, its frame leaves the queue and the next one
begins unless the part is held or a flow character is pending; with no request waiting nothing else happens (R173). A
request that waited for room is then processed on the state as it stands, and when the buffer becomes empty a HOLDING
link becomes OPEN and asks for GO. With two waiting, the second follows while there is still room, and else waits, and
then no GO is asked for (R170, R171). Choices of the model in it: log entries 7 and 25. -/
def Obligations.SentReplyLeavesQueue : Prop :=
  (∀ (s : State) (f : ReplyFrame) (rest : List ReplyFrame), s.live = true → s.link.sending = true →
      s.link.transmit = f :: rest → (f.type ≠ 0x7F#8 ∨ f.status ≠ .ok) →
      (s.link.buffer = [] ∨ s.link.restarting = true) →
      exec .replyFrameSent s = .next { s with
        trail := []
        lastSent := f.wire.map sentByte
        link := { s.link with
          transmit := rest, sending := !rest.isEmpty && !s.link.held && s.link.flow.isNone } })
  ∧ (∀ (s : State) (f : ReplyFrame) (rest : List ReplyFrame) (w : Waiting), s.live = true →
      s.link.sending = true → s.link.transmit = f :: rest → (f.type ≠ 0x7F#8 ∨ f.status ≠ .ok) →
      s.link.buffer = [w] → s.link.restarting = false → rest.length < Config.transmitCapacity →
      let s1 : State := { s with
        trail := []
        lastSent := f.wire.map sentByte
        link := { s.link with
          transmit := rest, sending := !rest.isEmpty && !s.link.held && s.link.flow.isNone } }
      let v := process w.req s1
      let u := { v.state with link := { v.state.link with buffer := [] } }.answered
        { type := w.type, tag := w.tag, status := v.status, payload := v.payload }
      exec .replyFrameSent s = .next
        (if s.link.holding then { u with link := { u.link with holding := false, flow := some .go } } else u))
  ∧ (∀ (s : State) (f : ReplyFrame) (rest : List ReplyFrame) (w x : Waiting), s.live = true →
      s.link.sending = true → s.link.transmit = f :: rest → (f.type ≠ 0x7F#8 ∨ f.status ≠ .ok) →
      s.link.buffer = [w, x] → s.link.restarting = false → rest.length < Config.transmitCapacity →
      let s1 : State := { s with
        trail := []
        lastSent := f.wire.map sentByte
        link := { s.link with
          transmit := rest, sending := !rest.isEmpty && !s.link.held && s.link.flow.isNone } }
      let taken (w : Waiting) (left : List Waiting) (s : State) : State :=
        let v := process w.req s
        { v.state with link := { v.state.link with buffer := left } }.answered
          { type := w.type, tag := w.tag, status := v.status, payload := v.payload }
      let u := taken w [x] s1
      let z := taken x [] u
      ((Config.transmitCapacity ≤ rest.length + 1 ∨ u.link.restarting = true) →
        exec .replyFrameSent s = .next u)
      ∧ (rest.length + 1 < Config.transmitCapacity → u.link.restarting = false →
        exec .replyFrameSent s = .next
          (if s.link.holding then { z with link := { z.link with holding := false, flow := some .go } } else z)))

/-- A frame whose type no request has, or whose payload length is not the one that the table of R196 gives its type,
is no request, and every other frame is one: SHOW TEXT, LOAD PRICE and LOAD BANDS are sized by the count they carry. A
frame that is no request is answered BAD_FRAME and changes nothing (R172, R196). Choice of the model in it: log entry
3. -/
def Obligations.BadFrameAnswered : Prop :=
  (∀ (type : Byte) (payload : List Byte),
    (∀ r : Request, Request.wf r = true → Request.type r ≠ type) → parseRequest type payload = .badFrame type)
  ∧ (∀ (type tag : Byte) (payload : List Byte) (s : State), LinkReady s →
    parseRequest type payload = .badFrame type →
    exec (.badFrame type tag payload) s = .next (s.refusedWith type tag .badFrame))
  ∧ ∀ (type : Byte) (payload : List Byte),
    let fixed : List (Byte × Nat) :=
      [(0x01#8, 0), (0x02#8, 13), (0x03#8, 3), (0x10#8, 7), (0x11#8, 1), (0x12#8, 2), (0x13#8, 1),
       (0x18#8, 1), (0x19#8, 1), (0x21#8, 2), (0x30#8, 15), (0x31#8, 11), (0x32#8, 11), (0x33#8, 12),
       (0x34#8, 8), (0x35#8, 8), (0x36#8, 8), (0x37#8, 8), (0x40#8, 1), (0x41#8, 1), (0x50#8, 4),
       (0x51#8, 1), (0x52#8, 0), (0x60#8, 0), (0x61#8, 2), (0x70#8, 2), (0x7F#8, 0)]
    let sized (start each : Nat) : Prop :=
      ∃ count : Byte, payload[start - 1]? = some count ∧ payload.length = start + each * count.toNat
    let allowed : Prop := (type, payload.length) ∈ fixed
      ∨ (type = 0x1A#8 ∧ sized 2 1) ∨ (type = 0x20#8 ∧ sized 10 3) ∨ (type = 0x22#8 ∧ sized 1 4)
    parseRequest type payload = .badFrame type ↔ ¬ allowed

/-! ## The requests of the gateway link, the tariff unit and the tables -/

/-- STATUS is never refused; its block is taken from the state as it stands, and the RESTARTED latch is then clear and
nothing else changes (R178, R196). Each of the seven causes is present by its own condition alone, in the priority
given; the highest is the first present and enabled; ATTN_N is asserted exactly while the part is live and some cause
is present and enabled by its bit of the mask (R179, R180). Choices of the model in it: log entries 3, 7 and 34. -/
def Obligations.StatusReportsAndClearsLatch : Prop :=
  (∀ (tag : Byte) (s : State), LinkReady s →
    exec (.status tag) s
      = .next (State.replied
          { s with trail := [], link := { s.link with restarted := false } } 0x01#8 tag
          [ num1 ((s.highestCause.map Cause.priority).getD 0), s.causesByte, num1 s.link.cause.code,
            flag1 s.clock.valid, num1 s.heat.sag.code,
            num1 (match s.heat.sag with | .settling n => n | .normal => 0 | .asserted => 0),
            flag1 s.bus.jammed, num1 s.ret.budget, opt1 s.ret.pendingBudget, num1 s.committed,
            num1 s.openSessions, num1 s.ret.settlements.length, num1 s.ret.faults.length ]))
  ∧ ∀ s : State,
    let active (sev : Severity) : Prop := ∃ p f, (s.record p).fault = some f ∧ f.severity = sev
    let shown (c : Cause) : Prop :=
      s.causePresent c = true ∧ s.ret.config.attnMask.getLsbD (c.priority - 1) = true
    (s.causePresent .safety = true ↔ active .safety)
    ∧ (s.causePresent .settlementHigh = true ↔ 48 ≤ s.ret.settlements.length)
    ∧ (s.causePresent .lockout = true ↔ active .lockout)
    ∧ (s.causePresent .faultsWaiting = true ↔ s.ret.faults ≠ [])
    ∧ (s.causePresent .settlementsWaiting = true ↔ s.ret.settlements ≠ [])
    ∧ (s.causePresent .machineChanged = true ↔ ∃ p, (s.vol p).changed = true)
    ∧ (s.causePresent .restarted = true ↔ s.link.restarted = true)
    ∧ [Cause.safety, .settlementHigh, .lockout, .faultsWaiting, .settlementsWaiting, .machineChanged,
        .restarted].map Cause.priority = [1, 2, 3, 4, 5, 6, 7]
    ∧ (s.attention = true ↔ s.live = true ∧ ∃ c, shown c)
    ∧ (s.highestCause = none ↔ ∀ c, ¬ shown c)
    ∧ (∀ c, s.highestCause = some c ↔ shown c ∧ ∀ d, shown d → c.priority ≤ d.priority)
    ∧ (∀ c, s.causesByte.getLsbD (c.priority - 1) = s.causePresent c)
    ∧ s.causesByte.getLsbD 7 = false

/-- SET CONFIG changes the configuration as one whole and reports its nine fields in order; a new jam limit that a
stretch of space has already reached jams the bus at once (R9, R176, R196). That bit 7 of the mask is sent as 0 is the
model's choice (log entry 34). Choices of the model in it: log entries 3, 7, 12 and 23. -/
def Obligations.SetConfigChangesConfiguration : Prop :=
  ∀ (tag : Byte) (mask rate jam : BitVec 16) (lost start pause fin slice settle attn : Byte) (s : State),
    LinkReady s →
    let c := s.ret.config.apply mask rate jam lost start pause fin slice settle attn
    let s1 : State := { s with trail := [s.ret], ret := { s.ret with config := c } }
    let reached := s.bus.space.any (fun ms => c.jamLimit ≤ ms) && !s.bus.jammed && !s.driverEnabled
    exec (.setConfig tag mask rate jam lost start pause fin slice settle attn) s
      = .next (State.replied
          (if reached then
            appendFault 22 none .notice none none
              { s1 with bus := { s.bus with jammed := true, listening := false, visit := none } }
           else s1) 0x02#8 tag c.bytes)
    ∧ c.bytes =
        (let two (n : Nat) : List Byte := [BitVec.ofNat 8 (n / 256), BitVec.ofNat 8 n]
         let hundreds : Nat := match c.busRate with
           | .r9600 => 96
           | .r19200 => 192
           | .r38400 => 384
           | .r57600 => 576
         two hundreds ++ two c.jamLimit
           ++ [c.lostLimit, c.startLimit, c.pauseLimit, c.doneLimit, c.heatSlice, c.settleTime,
               c.attnMask.toNat].map (BitVec.ofNat 8))

/-- Every value of a SET CONFIG is brought into its range, a value in range is taken as it is, and a field that the
mask leaves out keeps its value. The bus rate becomes the nearest of the four, the lower of two as near; a jam limit
is rounded down to a multiple of 100 (R176). -/
def Obligations.SetConfigClampsValues : Prop :=
  (∀ lo hi v : Nat, lo ≤ hi → lo ≤ clamp lo hi v ∧ clamp lo hi v ≤ hi
    ∧ (lo ≤ v → v ≤ hi → clamp lo hi v = v) ∧ (v < lo → clamp lo hi v = lo) ∧ (hi < v → clamp lo hi v = hi))
  ∧ (∀ (h : Nat) (r : BusRate),
      let d (x : BusRate) : Nat := max x.hundreds h - min x.hundreds h
      d (BusRate.nearest h) ≤ d r
        ∧ (d (BusRate.nearest h) = d r → (BusRate.nearest h).hundreds ≤ r.hundreds))
  ∧ (∀ ms : Nat, 100 ≤ clampJam ms ∧ clampJam ms ≤ 2500 ∧ clampJam ms % 100 = 0
      ∧ (100 ≤ ms → ms ≤ 2500 → clampJam ms ≤ ms ∧ ms < clampJam ms + 100))
  ∧ ∀ (c : RoomConfig) (mask rate jam : BitVec 16) (lost start pause fin slice settle attn : Byte),
      let c' := c.apply mask rate jam lost start pause fin slice settle attn
      c'.busRate = (if mask.getLsbD 0 then BusRate.nearest rate.toNat else c.busRate)
      ∧ c'.jamLimit = (if mask.getLsbD 1 then clampJam jam.toNat else c.jamLimit)
      ∧ c'.lostLimit = (if mask.getLsbD 2 then clamp 2 15 lost.toNat else c.lostLimit)
      ∧ c'.startLimit = (if mask.getLsbD 3 then clamp 5 60 start.toNat else c.startLimit)
      ∧ c'.pauseLimit = (if mask.getLsbD 4 then clamp 5 30 pause.toNat else c.pauseLimit)
      ∧ c'.doneLimit = (if mask.getLsbD 5 then clamp 2 20 fin.toNat else c.doneLimit)
      ∧ c'.heatSlice = (if mask.getLsbD 6 then clamp 2 20 slice.toNat else c.heatSlice)
      ∧ c'.settleTime = (if mask.getLsbD 7 then clamp 5 60 settle.toNat else c.settleTime)
      ∧ (∀ i < 7, c'.attnMask.getLsbD i = if mask.getLsbD 8 then attn.getLsbD i else c.attnMask.getLsbD i)

/-- RESTART is refused IN_USE while a session is open; otherwise it is answered OK and from that moment no request is
processed (R177). Choices of the model in it: log entries 3 and 7. -/
def Obligations.RestartStopsProcessing : Prop :=
  ∀ (tag : Byte) (s : State), LinkReady s →
    ((∃ p, (s.session p).isSome = true) → exec (.restart tag) s = .next (s.refusedWith 0x7F#8 tag .inUse))
    ∧ ((∀ p, s.session p = none) →
      exec (.restart tag) s
        = .next (State.replied
            { s with trail := [], link := { s.link with restarting := true } } 0x7F#8 tag []))

/-- SET CLOCK refuses a minute above 10,079 or a second above 59; otherwise the clock takes both and is valid, and a
valid clock that is moved to another day sets every card's spent today to 0 (R65, R79). Choices of the model in it:
log entries 3, 7 and 23. -/
def Obligations.SetClockSetsAndRollsOver : Prop :=
  ∀ (tag : Byte) (minute : BitVec 16) (second : Byte) (s : State), LinkReady s →
    ((10079 < minute.toNat ∨ 59 < second.toNat) →
      exec (.setClock tag minute second) s = .next (s.refusedWith 0x03#8 tag .badValue))
    ∧ (minute.toNat ≤ 10079 → second.toNat ≤ 59 → ∃ tr,
      exec (.setClock tag minute second) s
        = .next (State.replied
            { s with
              trail := tr
              clock := { minute := minute.toNat, second := second.toNat, valid := true }
              ret :=
                if s.clock.valid = true ∧ minute.toNat / 1440 ≠ s.clock.minute / 1440 then
                  { s.ret with
                    cards := s.ret.cards.map fun c => { c with spent := 0 }
                    journal := none }
                else s.ret } 0x03#8 tag []))

/-- The tests that LOAD MACHINE and LOAD PRICE make on their fields, and the records that pass them: a washer's minute
fields are absent, a washer's ph and pc and a dryer's base and nominal minutes are stored as 0 (R24, R83). -/
def Obligations.TableLoadTests : Prop :=
  (∀ cls heater motor lo hi dflt : Byte,
      (machineConfig cls heater motor lo hi dflt = none ↔
        (cls ≠ 1#8 ∧ cls ≠ 2#8) ∨ 63 < heater.toNat ∨ 15 < motor.toNat
        ∨ (cls = 2#8 ∧ (lo.toNat < 5 ∨ 60 < lo.toNat ∨ hi.toNat < 10 ∨ 120 < hi.toNat ∨ hi.toNat < lo.toNat
            ∨ dflt.toNat < lo.toNat ∨ hi.toNat < dflt.toNat)))
      ∧ ∀ cfg, machineConfig cls heater motor lo hi dflt = some cfg →
        cfg.heater = heater.toNat ∧ cfg.motor = motor.toNat
        ∧ (cls = 1#8 → cfg.cls = .washer ∧ cfg.limits = none)
        ∧ (cls = 2#8 → cfg.cls = .dryer
            ∧ cfg.limits = some { minimum := lo.toNat, maximum := hi.toNat, dflt := dflt.toNat }))
  ∧ (∀ (cls program : Byte) (base ph pc : BitVec 16) (n : Byte) (pairs : List (Byte × BitVec 16)),
      (priceEntry cls program base ph pc n pairs = none ↔
        (cls ≠ 1#8 ∧ cls ≠ 2#8) ∨ program.toNat = 0 ∨ 15 < program.toNat
        ∨ (cls = 1#8 ∧ (5000 < base.toNat ∨ n.toNat < 10 ∨ 180 < n.toNat))
        ∨ (cls = 2#8 ∧ (500 < ph.toNat ∨ ph.toNat < pc.toNat))
        ∨ 4 < pairs.length ∨ (∃ x ∈ pairs, 3 < x.1.toNat ∨ 1000 < x.2.toNat) ∨ ¬ (pairs.map (·.1)).Nodup)
      ∧ ∀ e, priceEntry cls program base ph pc n pairs = some e →
        e.program = program.toNat
        ∧ e.surcharges.map (fun x => (x.1.bit, x.2)) = pairs.map (fun x => (x.1.toNat, x.2.toNat))
        ∧ (cls = 1#8 → e.cls = .washer ∧ e.base = base.toNat ∧ e.n = n.toNat ∧ e.ph = 0 ∧ e.pc = 0)
        ∧ (cls = 2#8 → e.cls = .dryer ∧ e.base = 0 ∧ e.n = 0 ∧ e.ph = ph.toNat ∧ e.pc = pc.toNat))

/-- LOAD MACHINE at an unconfigured address makes a fresh position whose changed flag is set and whose one order is
HEAT_OFF; at a configured one it replaces the configuration alone, and is refused IN_USE while a session is open or
the grant is not NONE (R15, R24, R30, R125). Choices of the model in it: log entries 3, 7, 16 and 23. -/
def Obligations.LoadMachineConfigures : Prop :=
  ∀ (tag addr cls heater motor lo hi dflt : Byte) (s : State), LinkReady s →
    ((posOf addr = none ∨ machineConfig cls heater motor lo hi dflt = none) →
      exec (.loadMachine tag addr cls heater motor lo hi dflt) s
        = .next (s.refusedWith 0x10#8 tag .badValue))
    ∧ ∀ p cfg, posOf addr = some p → machineConfig cls heater motor lo hi dflt = some cfg →
      ((s.record p).config = none → ∃ tr,
        exec (.loadMachine tag addr cls heater motor lo hi dflt) s
          = .next (State.replied
              { s with
                trail := tr
                ret := { s.ret with
                  positions := s.ret.positions.set p.val
                    { config := some cfg, oos := false, fault := none } }
                pos := s.pos.set p.val
                  { PosState.new with
                    changed := true
                    orders := [{ body := .heatOff, owned := true, tag := none }] }
                bus := { s.bus with
                  slot := settledSlot s.bus.slot true (allTerminals.any s.termConfigured) } }
              0x10#8 tag []))
      ∧ (∀ old, (s.record p).config = some old →
        ((s.session p).isSome = true ∨ (s.vol p).grant ≠ .none →
          exec (.loadMachine tag addr cls heater motor lo hi dflt) s
            = .next (s.refusedWith 0x10#8 tag .inUse))
        ∧ (s.session p = none → (s.vol p).grant = .none →
          exec (.loadMachine tag addr cls heater motor lo hi dflt) s
            = .next (State.replied
                { s with
                  trail := [s.ret]
                  ret := { s.ret with
                    positions := s.ret.positions.set p.val { s.record p with config := some cfg } }
                  pos := if old.cls = cfg.cls then s.pos
                    else s.pos.set p.val { s.vol p with mismatch := false } } 0x10#8 tag [])))

/-- REMOVE MACHINE discards the record, its queue, its faults and its bus state, and sets the changed flag; it is
refused NOT_FOUND at no position and IN_USE while a session is open or the grant is not NONE (R15, R25). Choices of
the model in it: log entries 3, 7, 16, 17 and 23. -/
def Obligations.RemoveMachineDiscards : Prop :=
  ∀ (tag addr : Byte) (s : State), LinkReady s →
    ((∀ p, posOf addr = some p → s.configured p = false) →
      exec (.removeMachine tag addr) s = .next (s.refusedWith 0x11#8 tag .notFound))
    ∧ ∀ p, posOf addr = some p → s.configured p = true →
      ((s.session p).isSome = true ∨ (s.vol p).grant ≠ .none →
        exec (.removeMachine tag addr) s = .next (s.refusedWith 0x11#8 tag .inUse))
      ∧ (s.session p = none → (s.vol p).grant = .none →
        exec (.removeMachine tag addr) s
          = .next (State.replied
            { s with
              trail := [s.ret]
              ret := { s.ret with
                positions := s.ret.positions.set p.val { config := none, oos := false, fault := none } }
              pos := s.pos.set p.val { PosState.new with changed := true }
              bus := { s.bus with
                slot := settledSlot s.bus.slot (allPositions.any fun q => q != p && s.configured q)
                  (allTerminals.any s.termConfigured)
                visit := s.bus.visit.map fun v =>
                  if v.node = .machine p then { v with removed := true } else v } } 0x11#8 tag []))

/-- SERVICE sets or clears OUT_OF_SERVICE. A display order is queued when the display demand changes, and the changed
flag is set when the availability changes; the value already in force changes nothing (R26, R27, R28, R39). Choices of
the model in it: log entries 3, 7, 15 and 23. -/
def Obligations.ServiceSetsOutOfService : Prop :=
  ∀ (tag addr value : Byte) (s : State), LinkReady s →
    ((∀ p, posOf addr = some p → s.configured p = false) →
      exec (.service tag addr value) s = .next (s.refusedWith 0x12#8 tag .notFound))
    ∧ ∀ p, posOf addr = some p → s.configured p = true →
      (1 < value.toNat → exec (.service tag addr value) s = .next (s.refusedWith 0x12#8 tag .badValue))
      ∧ (value.toNat ≤ 1 → (s.session p).isSome = true →
        exec (.service tag addr value) s = .next (s.refusedWith 0x12#8 tag .inUse))
      ∧ (value.toNat ≤ 1 → s.session p = none →
        let on := decide (value = 1#8)
        let v := s.vol p
        let q := queueDisplay (if on then .disable else .enable) v.orders
        exec (.service tag addr value) s
          = .next (State.replied
              { s with
                trail := [s.ret]
                ret := { s.ret with positions := s.ret.positions.set p.val { s.record p with oos := on } }
                pos := if (s.record p).oos ≠ on ∧ (s.record p).fault = none then
                    s.pos.set p.val
                      { v with
                        orders := q.1
                        owed := q.2
                        changed := v.changed || v.bus.presence == .present }
                  else s.pos } 0x12#8 tag []))

/-- READ MACHINES gives the entries of all 24 addresses, or of those whose changed flag is set, in rising order, and
clears the flags of the addresses it gives; another mode is refused BAD_VALUE (R34). Each entry has the eight bytes of
R196: address; availability, presence, class and out of service; active fault; session and grant; machine state;
phase; door, heater and orders waiting; remaining minutes. That bit 7 of the state and display bytes is sent as 0 is
the model's choice (log entry 34). Choices of the model in it: log entries 3 and 7. -/
def Obligations.ReadMachinesClearsFlags : Prop :=
  (∀ (tag mode : Byte) (s : State), LinkReady s →
    (1 < mode.toNat → exec (.readMachines tag mode) s = .next (s.refusedWith 0x13#8 tag .badValue))
    ∧ (mode.toNat ≤ 1 →
      let ps := if mode = 0#8 then allPositions else allPositions.filter fun p => (s.vol p).changed
      ∃ pos : Vector PosState 24,
        exec (.readMachines tag mode) s
          = .next (State.replied { s with trail := [], pos := pos } 0x13#8 tag
              (num1 ps.length :: ps.flatMap s.machineEntry))
        ∧ ∀ p : PosIx, pos[p.val] = { s.vol p with changed := false }))
  ∧ ∀ (s : State) (p : PosIx),
    let r := s.record p
    let v := s.vol p
    ∃ state fault grant mstate phase display left : Byte,
      s.machineEntry p = [BitVec.ofNat 8 (p.val + 1), state, fault, grant, mstate, phase, display, left]
      ∧ state.toNat =
          (if r.config = none then 0
           else if (s.session p).isSome then 2
           else if v.bus.presence = .present ∧ r.fault = none ∧ r.oos = false then 1 else 3)
          + 4 * (if r.config = none then 3 else match v.bus.presence with
            | .unheard => 0
            | .present => 1
            | .lost => 2)
          + 16 * (match r.config.map (·.cls) with
            | none => 3
            | some .washer => 1
            | some .dryer => 2)
          + 64 * (if r.oos then 1 else 0)
      ∧ fault = (match r.fault with
          | none => 0xFF#8
          | some f => BitVec.ofNat 8 f.code)
      ∧ grant.toNat =
          (match (s.session p).map (·.state) with
            | none => 15
            | some .starting => 0
            | some .running => 1
            | some .paused => 2
            | some .ending => 3)
          + 16 * (match v.grant with
            | .none => 0
            | .queued => 1
            | .granted => 2
            | .releasing => 3)
      ∧ (v.lastState = none → mstate = 0xFF#8 ∧ phase = 0xFF#8 ∧ left = 0xFF#8)
      ∧ (∀ x, v.lastState = some x →
        mstate.toNat = (match x.mstate with
          | .ready => 0
          | .doorOpen => 1
          | .running => 2
          | .paused => 3
          | .done => 4)
        ∧ phase.toNat = (match x.phase with
          | .none => 0
          | .fill => 1
          | .wash => 2
          | .heat => 3
          | .rinse => 4
          | .spin => 5
          | .tumble => 6
          | .cool => 7)
        ∧ left = BitVec.ofNat 8 x.remaining)
      ∧ (v.orders.length ≤ 4 →
        display.toNat = (match v.lastState with
            | none => 15
            | some x => (if x.doorLocked then 1 else 0) + 4 * (if x.heaterOn then 1 else 0))
          + 16 * v.orders.length)

/-- LOAD TERMINAL makes a fresh terminal, or changes nothing at one that is configured; REMOVE TERMINAL discards one
without a pending request (R46, R47). Choices of the model in it: log entries 3, 7, 16, 17 and 23. -/
def Obligations.TerminalsLoadedAndRemoved : Prop :=
  ∀ (tag addr : Byte) (s : State), LinkReady s →
    (termOf addr = none →
      exec (.loadTerminal tag addr) s = .next (s.refusedWith 0x18#8 tag .badValue)
      ∧ exec (.removeTerminal tag addr) s = .next (s.refusedWith 0x19#8 tag .notFound))
    ∧ ∀ t, termOf addr = some t →
      (s.termConfigured t = true →
        exec (.loadTerminal tag addr) s = .next (State.replied { s with trail := [] } 0x18#8 tag []))
      ∧ (s.termConfigured t = false →
        exec (.removeTerminal tag addr) s = .next (s.refusedWith 0x19#8 tag .notFound)
        ∧ exec (.loadTerminal tag addr) s
            = .next (State.replied
              { s with
                trail := [s.ret]
                ret := { s.ret with terminals := s.ret.terminals.set t.val true }
                term := s.term.set t.val
                  { request := none, lastTag := none, outbox := []
                    bus := { presence := .unheard, miss := 0, skip := 0, counter := 0#4,
                             learned := false, lastMiss := none } }
                bus := { s.bus with
                  slot := settledSlot s.bus.slot (allPositions.any s.configured) true } } 0x18#8 tag []))
      ∧ (s.termConfigured t = true → (s.terminal t).request.isSome = true →
        exec (.removeTerminal tag addr) s = .next (s.refusedWith 0x19#8 tag .inUse))
      ∧ (s.termConfigured t = true → (s.terminal t).request = none →
        exec (.removeTerminal tag addr) s
          = .next (State.replied
              { s with
                trail := [s.ret]
                ret := { s.ret with terminals := s.ret.terminals.set t.val false }
                term := s.term.set t.val TermState.new
                bus := { s.bus with
                  slot := settledSlot s.bus.slot (allPositions.any s.configured)
                    (allTerminals.any fun u => u != t && s.termConfigured u)
                  visit := s.bus.visit.map fun v =>
                    if v.node = .terminal t then { v with removed := true } else v } } 0x19#8 tag []))

/-- SHOW TEXT makes its tests in order and queues the TEXT at the tail of the outbox (R57). An ANSWER that is queued
takes its place behind the item in delivery and every waiting ANSWER and ahead of every undelivered TEXT; in an outbox
of 4 the oldest undelivered TEXT is discarded first (R54, R55). An ANSWER of the session table is queued where R52
admits it and is otherwise discarded; a DECLINE carries its reason and the card's available balance, absent for an
unknown card (R52, R58). Choices of the model in it: log entries 3 and 7. -/
def Obligations.ShowTextQueuesText : Prop :=
  (∀ (tag addr : Byte) (text : List Byte) (s : State), LinkReady s →
    ((∀ t, termOf addr = some t → s.termConfigured t = false) →
      exec (.showText tag addr text) s = .next (s.refusedWith 0x1A#8 tag .notFound))
    ∧ ∀ t, termOf addr = some t → s.termConfigured t = true →
      ((32 < text.length ∨ ∃ b ∈ text, textSymbol b = none) →
        exec (.showText tag addr text) s = .next (s.refusedWith 0x1A#8 tag .badValue))
      ∧ (text.length ≤ 32 → (∀ b ∈ text, textSymbol b ≠ none) →
        ((s.terminal t).bus.presence = .lost →
          exec (.showText tag addr text) s = .next (s.refusedWith 0x1A#8 tag .refusedState))
        ∧ ((s.terminal t).bus.presence ≠ .lost → 4 ≤ (s.terminal t).outbox.length →
          exec (.showText tag addr text) s = .next (s.refusedWith 0x1A#8 tag .full))
        ∧ ((s.terminal t).bus.presence ≠ .lost → (s.terminal t).outbox.length < 4 →
          exec (.showText tag addr text) s
            = .next (State.replied
                { s with
                  trail := []
                  term := s.term.set t.val
                    { s.terminal t with
                      outbox := (s.terminal t).outbox ++ [{ body := .text text, tag := none }] } }
                0x1A#8 tag []))))
  ∧ (∀ (i : Item) (ahead texts : List Item),
      let undelivered (x : Item) : Prop := x.tag = none ∧ ∃ chars, x.body = .text chars
      (∀ x ∈ ahead, ¬ undelivered x) → (∀ x ∈ texts, undelivered x) →
      ((ahead ++ texts).length < 4 → placeAnswer i (ahead ++ texts) = ahead ++ i :: texts)
      ∧ ∀ oldest rest, texts = oldest :: rest → (ahead ++ texts).length = 4 →
        placeAnswer i (ahead ++ texts) = ahead ++ i :: rest)
  ∧ ∀ (s : State) (t : TermIx) (a : Answer),
      let v := s.terminal t
      let open1 : Prop := s.termConfigured t = true ∧ v.request = some a.reqTag
        ∧ ∀ i ∈ v.outbox, ∀ b, i.body = .answer b false → b.reqTag ≠ a.reqTag
      (open1 → sendAnswer t a s = { s with
        term := s.term.set t.val
          { v with outbox := placeAnswer { body := .answer a false, tag := none } v.outbox } })
      ∧ (¬ open1 → sendAnswer t a s = s)
      ∧ ∀ (reqTag : Byte) (reason : DeclineReason) (id : CardId),
        sendDecline t reqTag reason id s
          = sendAnswer t
              { reqTag := reqTag, decline := some reason, amount := 0, minutes := 0, options := 0#4
                available := (s.card id).map fun c => c.balance - c.held } s

/-- LOAD PRICE replaces the entry with its key whole or adds one, a full table refuses a new key, and REMOVE PRICE
removes an entry; no other key is touched (R82, R83, R84). Choices of the model in it: log entries 3, 7, 23 and 24. -/
def Obligations.PricesLoadedAndRemoved : Prop :=
  ∀ (tag cls program : Byte) (s : State), LinkReady s →
    (∀ (base ph pc : BitVec 16) (n : Byte) (pairs : List (Byte × BitVec 16)),
      (priceEntry cls program base ph pc n pairs = none →
        exec (.loadPrice tag cls program base ph pc n pairs) s
          = .next (s.refusedWith 0x20#8 tag .badValue))
      ∧ ∀ e, priceEntry cls program base ph pc n pairs = some e →
        (findPrice e.cls e.program s.ret.prices = none → 32 ≤ s.ret.prices.length →
          exec (.loadPrice tag cls program base ph pc n pairs) s
            = .next (s.refusedWith 0x20#8 tag .full))
        ∧ ((findPrice e.cls e.program s.ret.prices ≠ none ∨ s.ret.prices.length < 32) →
          ∃ prices, exec (.loadPrice tag cls program base ph pc n pairs) s
              = .next (State.replied
                  { s with trail := [s.ret], ret := { s.ret with prices := prices } } 0x20#8 tag [])
            ∧ findPrice e.cls e.program prices = some e
            ∧ ∀ c k, (c, k) ≠ (e.cls, e.program) → findPrice c k prices = findPrice c k s.ret.prices))
    ∧ ((MachineClass.ofCode cls = none ∨ program.toNat = 0 ∨ 15 < program.toNat) →
      exec (.removePrice tag cls program) s = .next (s.refusedWith 0x21#8 tag .badValue))
    ∧ (∀ c, MachineClass.ofCode cls = some c → 1 ≤ program.toNat → program.toNat ≤ 15 →
      (findPrice c program.toNat s.ret.prices = none →
        exec (.removePrice tag cls program) s = .next (s.refusedWith 0x21#8 tag .notFound))
      ∧ (findPrice c program.toNat s.ret.prices ≠ none →
        ∃ prices, exec (.removePrice tag cls program) s
            = .next (State.replied
                { s with trail := [s.ret], ret := { s.ret with prices := prices } } 0x21#8 tag [])
          ∧ findPrice c program.toNat prices = none
          ∧ ∀ d k, (d, k) ≠ (c, program.toNat) → findPrice d k prices = findPrice d k s.ret.prices))

/-- LOAD BANDS replaces the whole table by up to 8 bands in range whose start minutes strictly rise, and is otherwise
refused BAD_VALUE (R85). A reading gives the band in force for the clock's minute: the one with the greatest start not
above it, else the last of the table; with no band, or an invalid clock, M is 100 and the room is not closed; it gives
the minute while the clock is valid (R81, R86). Choices of the model in it: log entries 3, 7 and 23. -/
def Obligations.LoadBandsReplacesTable : Prop :=
  (∀ (tag : Byte) (bands : List (BitVec 16 × Byte × Byte)) (s : State), LinkReady s →
    let good := bands.length ≤ 8
      ∧ (∀ b ∈ bands, b.1.toNat ≤ 10079 ∧ 50 ≤ b.2.1.toNat ∧ b.2.1.toNat ≤ 250 ∧ b.2.2.toNat ≤ 1)
      ∧ bands.Pairwise (fun a b => a.1.toNat < b.1.toNat)
    (¬ good → exec (.loadBands tag bands) s = .next (s.refusedWith 0x22#8 tag .badValue))
    ∧ (good → exec (.loadBands tag bands) s
        = .next (State.replied
            { s with
              trail := [s.ret]
              ret := { s.ret with
                bands := bands.map fun b =>
                  { start := b.1.toNat, multiplier := b.2.1.toNat, closed := b.2.2 == 1#8 } } }
            0x22#8 tag [])))
  ∧ ∀ s : State,
    let r := s.bandReading
    let minute := s.clock.minute
    (s.clock.valid = false → r = { m := 100, closed := false, minute := none })
    ∧ (s.clock.valid = true → s.ret.bands = [] → r = { m := 100, closed := false, minute := some minute })
    ∧ (s.clock.valid = true → ∀ b ∈ s.ret.bands,
      ((b.start ≤ minute ∧ ∀ x ∈ s.ret.bands, x ≠ b → x.start ≤ minute → x.start < b.start)
        ∨ ((∀ x ∈ s.ret.bands, minute < x.start) ∧ s.ret.bands.getLast? = some b)) →
      r = { m := b.multiplier, closed := b.closed, minute := some minute })
    ∧ (s.clock.valid = true → s.ret.bands ≠ [] → ∃ b ∈ s.ret.bands,
      r = { m := b.multiplier, closed := b.closed, minute := some minute }
      ∧ ((b.start ≤ minute ∧ ∀ x ∈ s.ret.bands, x.start ≤ minute → x.start ≤ b.start)
        ∨ ((∀ x ∈ s.ret.bands, minute < x.start) ∧ s.ret.bands.getLast? = some b)))

/-! ## The requests of the card table -/

/-- ADD CARD makes its tests in order and adds an ACTIVE record with nothing held or spent; no other card is touched
(R71). Choice of the model in it: log entry 3. -/
def Obligations.AddCardMakesRecord : Prop :=
  ∀ (tag : Byte) (id : CardId) (cls : Byte) (balance : BitVec 24) (discount : Byte) (limit : BitVec 16)
    (s : State), LinkReady s →
    let bad := id = 0#64 ∨ 2 < cls.toNat ∨ 500000 < balance.toNat ∨ 90 < discount.toNat
      ∨ (limit ≠ 0xFFFF#16 ∧ (limit.toNat = 0 ∨ 50000 < limit.toNat))
    (bad → exec (.addCard tag id cls balance discount limit) s = .next (s.refusedWith 0x30#8 tag .badValue))
    ∧ (¬ bad → (s.card id).isSome = true →
      exec (.addCard tag id cls balance discount limit) s = .next (s.refusedWith 0x30#8 tag .duplicate))
    ∧ (¬ bad → s.card id = none → 512 ≤ s.ret.cards.length →
      exec (.addCard tag id cls balance discount limit) s = .next (s.refusedWith 0x30#8 tag .full))
    ∧ (¬ bad → s.card id = none → s.ret.cards.length < 512 → ∃ t k,
      exec (.addCard tag id cls balance discount limit) s = .next t
      ∧ CardsChanged s t { type := 0x30#8, tag := tag, status := .ok, payload := [] }
      ∧ CardClass.ofCode cls = some k
      ∧ t.card id = some
          { id := id, cls := k, state := .active, balance := balance.toNat, held := 0,
            discount := discount.toNat
            limit := if limit = 0xFFFF#16 then none else some limit.toNat
            spent := 0 }
      ∧ ∀ j, j ≠ id → t.card j = s.card j)

/-- CREDIT CARD raises the balance by its amount, whatever the card's state and class; DEBIT CARD makes its tests in
order and lowers it, never below the held amount; nothing else is touched (R72, R73). Choice of the model in it: log
entry 3. -/
def Obligations.CreditAndDebitCard : Prop :=
  (∀ (tag : Byte) (id : CardId) (amount : BitVec 24) (s : State), LinkReady s →
      (s.card id = none → exec (.creditCard tag id amount) s = .next (s.refusedWith 0x31#8 tag .notFound))
      ∧ ∀ c, s.card id = some c →
        (amount.toNat = 0 ∨ 500000 < amount.toNat ∨ 500000 < c.balance + amount.toNat →
          exec (.creditCard tag id amount) s = .next (s.refusedWith 0x31#8 tag .badValue))
        ∧ (1 ≤ amount.toNat → amount.toNat ≤ 500000 → c.balance + amount.toNat ≤ 500000 → ∃ t,
          exec (.creditCard tag id amount) s = .next t
          ∧ CardsChanged s t { type := 0x31#8, tag := tag, status := .ok, payload := [] }
          ∧ t.card id = some { c with balance := c.balance + amount.toNat }
          ∧ ∀ j, j ≠ id → t.card j = s.card j))
  ∧ (∀ (tag : Byte) (id : CardId) (amount : BitVec 24) (s : State), LinkReady s →
      (s.card id = none → exec (.debitCard tag id amount) s = .next (s.refusedWith 0x32#8 tag .notFound))
      ∧ ∀ c, s.card id = some c →
        (amount.toNat = 0 ∨ 500000 < amount.toNat ∨ c.balance < amount.toNat →
          exec (.debitCard tag id amount) s = .next (s.refusedWith 0x32#8 tag .badValue))
        ∧ (1 ≤ amount.toNat → amount.toNat ≤ 500000 → amount.toNat ≤ c.balance →
          c.balance < amount.toNat + c.held →
          exec (.debitCard tag id amount) s = .next (s.refusedWith 0x32#8 tag .inUse))
        ∧ (1 ≤ amount.toNat → amount.toNat ≤ 500000 → amount.toNat + c.held ≤ c.balance → ∃ t,
          exec (.debitCard tag id amount) s = .next t
          ∧ CardsChanged s t { type := 0x32#8, tag := tag, status := .ok, payload := [] }
          ∧ t.card id = some { c with balance := c.balance - amount.toNat }
          ∧ ∀ j, j ≠ id → t.card j = s.card j))

/-- SET CARD replaces class, discount and daily limit and leaves balance, held, spent today and state; BLOCK CARD and
UNBLOCK CARD set the state of a known card, whatever it was, and touch nothing else (R74, R75). READ CARD gives the
record in the layout of the card block and changes nothing; REMOVE CARD removes the record of a card that holds
nothing (R76, R77, R196). A field of more bytes stands high byte first, and an absent one is all ones (R193). Choices
of the model in it: log entries 3 and 7. -/
def Obligations.CardRecordRequests : Prop :=
  (∀ (tag : Byte) (id : CardId) (cls discount : Byte) (limit : BitVec 16) (s : State), LinkReady s →
      (s.card id = none →
        exec (.setCard tag id cls discount limit) s = .next (s.refusedWith 0x33#8 tag .notFound))
      ∧ ∀ c, s.card id = some c →
        let bad := 2 < cls.toNat ∨ 90 < discount.toNat
          ∨ (limit ≠ 0xFFFF#16 ∧ (limit.toNat = 0 ∨ 50000 < limit.toNat))
        (bad → exec (.setCard tag id cls discount limit) s = .next (s.refusedWith 0x33#8 tag .badValue))
        ∧ (¬ bad → ∃ t k,
          exec (.setCard tag id cls discount limit) s = .next t
          ∧ CardsChanged s t { type := 0x33#8, tag := tag, status := .ok, payload := [] }
          ∧ CardClass.ofCode cls = some k
          ∧ t.card id = some
              { c with
                cls := k
                discount := discount.toNat
                limit := if limit = 0xFFFF#16 then none else some limit.toNat }
          ∧ ∀ j, j ≠ id → t.card j = s.card j))
  ∧ (∀ (tag : Byte) (id : CardId) (s : State), LinkReady s →
      (s.card id = none →
        exec (.blockCard tag id) s = .next (s.refusedWith 0x34#8 tag .notFound)
        ∧ exec (.unblockCard tag id) s = .next (s.refusedWith 0x35#8 tag .notFound))
      ∧ ∀ c, s.card id = some c →
        (∃ t, exec (.blockCard tag id) s = .next t
          ∧ CardsChanged s t { type := 0x34#8, tag := tag, status := .ok, payload := [] }
          ∧ t.card id = some { c with state := .blocked } ∧ ∀ j, j ≠ id → t.card j = s.card j)
        ∧ (∃ t, exec (.unblockCard tag id) s = .next t
          ∧ CardsChanged s t { type := 0x35#8, tag := tag, status := .ok, payload := [] }
          ∧ t.card id = some { c with state := .active } ∧ ∀ j, j ≠ id → t.card j = s.card j))
  ∧ (∀ (tag : Byte) (id : CardId) (s : State), LinkReady s →
        (s.card id = none →
          exec (.readCard tag id) s = .next (s.refusedWith 0x37#8 tag .notFound)
          ∧ exec (.removeCard tag id) s = .next (s.refusedWith 0x36#8 tag .notFound))
        ∧ ∀ c, s.card id = some c →
          exec (.readCard tag id) s
            = .next (State.replied { s with trail := [] } 0x37#8 tag
                (idBytes id ++ [num1 c.cls.code, num1 c.state.code] ++ num3 c.balance ++ num3 c.held
                  ++ num3 (c.balance - c.held) ++ [num1 c.discount] ++ opt2 c.limit ++ num3 c.spent))
          ∧ (0 < c.held → exec (.removeCard tag id) s = .next (s.refusedWith 0x36#8 tag .inUse))
          ∧ (c.held = 0 → ∃ t, exec (.removeCard tag id) s = .next t
            ∧ CardsChanged s t { type := 0x36#8, tag := tag, status := .ok, payload := [] }
            ∧ t.card id = none ∧ ∀ j, j ≠ id → t.card j = s.card j))
  ∧ (∀ n : Nat, num1 n = BitVec.ofNat 8 n
    ∧ opt2 (some n) = [BitVec.ofNat 8 (n / 256), BitVec.ofNat 8 n]
    ∧ num3 n = [BitVec.ofNat 8 (n / 65536), BitVec.ofNat 8 (n / 256), BitVec.ofNat 8 n])
  ∧ opt2 none = [0xFF#8, 0xFF#8]
  ∧ ∀ id : CardId, idBytes id = (List.range 8).map fun i => BitVec.ofNat 8 (id.toNat / 256 ^ (7 - i))

/-! ## The requests of the heat budget unit, the fault unit, the settlement queue and the session table -/

/-- SET BUDGET is refused above 250. A value that committed load meets is active at once and none is pending; granting
is then evaluated. A value below it is pending, the active budget stays, and dryer grants are withdrawn one at a time:
the newest GRANTED dryer, while the load still drawn exceeds the value and one is left. GRANTED washers keep theirs.
Where each HEAT_OFF finds a place and no HEAT_ON is undelivered, exactly the newest dryers needed become RELEASING and
nothing else changes. The reply carries both budgets as they stand after it (R123, R124). Choices of the model in it:
log entries 3, 7 and 23. -/
def Obligations.SetBudgetAppliesOrWaits : Prop :=
  (∀ (tag value : Byte) (s : State), LinkReady s →
    let n := value.toNat
    let applied : State :=
      { s with trail := [s.ret], ret := { s.ret with budget := n, pendingBudget := none } }
    let waiting : State := { s with trail := [s.ret], ret := { s.ret with pendingBudget := some n } }
    let replied (t : State) : State :=
      t.replied 0x40#8 tag [num1 t.ret.budget, (t.ret.pendingBudget.map num1).getD 0xFF#8]
    (250 < n → exec (.setBudget tag value) s = .next (s.refusedWith 0x40#8 tag .badValue))
    ∧ (n ≤ 250 → s.committed ≤ n → ∃ t,
      exec (.setBudget tag value) s = .next t
      ∧ t = replied (evaluate applied)
      ∧ t.ret.budget = n ∧ t.ret.pendingBudget = none ∧ RoomStep s { t with link := s.link }
      ∧ t.link.transmit = s.link.transmit
          ++ [{ type := 0x40#8, tag := tag, status := .ok, payload := [value, 0xFF#8] }]
      ∧ (s.heat.queue = [] →
        t = State.replied
          { s with
            trail := [s.ret]
            ret := { s.ret with budget := n, pendingBudget := none } } 0x40#8 tag [value, 0xFF#8]))
    ∧ (n ≤ 250 → n < s.committed → ∃ (t : State) (ps : List PosIx),
      let after (k : Nat) : State := (ps.take k).foldl (fun u p => withdraw p u) waiting
      exec (.setBudget tag value) s = .next t
      ∧ t = replied (after ps.length)
      ∧ (∀ k p, ps[k]? = some p → n < (after k).stillDrawn ∧ (after k).newestDryer = some p)
      ∧ (t.stillDrawn ≤ n ∨ t.newestDryer = none)
      ∧ ((t.ret.pendingBudget = some n ∧ t.ret.budget = s.ret.budget)
        ∨ (t.ret.pendingBudget = none ∧ t.ret.budget = n))
      ∧ RoomStep s { t with link := s.link }
      ∧ (HeatLaw s → ∀ p, (s.vol p).grant = .granted → s.isDryer p = false → t.vol p = s.vol p)
      ∧ (s.newestDryer = none → t = replied waiting))
    ∧ (n ≤ 250 → n < s.committed → HeatLaw s →
      (∀ p, (s.vol p).grant = .granted → s.isDryer p = true →
        (∀ o ∈ (s.vol p).orders, o.tag = none → o.body ≠ .heatOn)
        ∧ ((s.vol p).orders.length < 4 ∨ ∃ o ∈ (s.vol p).orders, o.tag = none ∧ o.body = .heatOff)) →
      ∃ (taken left : List PosIx) (pos : Vector PosState 24),
        let drawn (ps : List PosIx) : Nat := s.stillDrawn - (ps.map s.heaterDemand).sum
        s.heat.order.reverse.filter s.isDryer = taken ++ left
        ∧ (∀ k < taken.length, n < drawn (taken.take k))
        ∧ (drawn taken ≤ n ∨ left = [])
        ∧ exec (.setBudget tag value) s = .next (State.replied
            { waiting with
              pos := pos
              heat := { s.heat with order := s.heat.order.filter fun p => p ∉ taken } }
            0x40#8 tag [num1 s.ret.budget, value])
        ∧ (∀ p ∈ taken, pos[p.val] = { s.vol p with
            grant := .releasing, slice := none, changed := true
            orders := withHeatOff (s.vol p).orders })
        ∧ ∀ p, p ∉ taken → pos[p.val] = s.vol p))
  ∧ ∀ s : State,
    let holds (p : PosIx) : Prop := (s.vol p).grant = .granted ∧ s.isDryer p = true
    (∀ p, s.newestDryer = some p ↔
      holds p ∧ ∃ older newer, s.heat.order = older ++ p :: newer ∧ p ∉ newer ∧ ∀ q ∈ newer, ¬ holds q)
    ∧ (s.newestDryer = none ↔ ∀ q ∈ s.heat.order, ¬ holds q)
    ∧ s.stillDrawn + (allPositions.map fun p =>
        if (s.vol p).grant = .releasing then s.heaterDemand p else 0).sum = s.committed

/-- RELEASE HEAT ends the RELEASING grant of a LOST position: its load leaves committed load; it is refused for any
other presence or grant. With no budget pending and no position waiting nothing else changes (R137). A VALID STATE
with the heater off ends a RELEASING grant once no HEAT_OFF stands, and then the position joins the queue again where
the STATE asks for heat and its session is RUNNING; otherwise the grant stays RELEASING (R131, R132). At a fall of
committed load a pending budget that is met becomes active, and granting is evaluated (R120, R124). Choices of the
model in it: log entries 3, 7 and 23. -/
def Obligations.ReleaseHeatEndsLostGrant : Prop :=
  let ended (s : State) (p : PosIx) : State :=
    { s with
      pos := s.pos.set p.val { s.vol p with grant := .none, slice := none, changed := true }
      heat := { s.heat with queue := s.heat.queue.erase p, order := s.heat.order.erase p } }
  (∀ (tag addr : Byte) (s : State), LinkReady s →
    ((∀ p, posOf addr = some p → s.configured p = false) →
      exec (.releaseHeat tag addr) s = .next (s.refusedWith 0x41#8 tag .notFound))
    ∧ ∀ p, posOf addr = some p → s.configured p = true →
      ((s.vol p).bus.presence ≠ .lost ∨ (s.vol p).grant ≠ .releasing →
        exec (.releaseHeat tag addr) s = .next (s.refusedWith 0x41#8 tag .refusedState))
      ∧ ((s.vol p).bus.presence = .lost → (s.vol p).grant = .releasing → ∃ t,
        exec (.releaseHeat tag addr) s = .next t
        ∧ t = State.replied (committedFell { ended s p with trail := [] }) 0x41#8 tag []
        ∧ (p ∉ s.heat.queue → (t.vol p).grant = .none ∧ (t.vol p).orders = (s.vol p).orders)
        ∧ (s.ret.pendingBudget = none → s.heat.queue = [] → p ∉ s.heat.order →
          t = State.replied
              { s with
                trail := []
                pos := s.pos.set p.val { s.vol p with grant := .none, slice := none, changed := true } }
              0x41#8 tag []
          ∧ t.committed + s.heaterDemand p = s.committed)))
  ∧ (∀ (s : State) (p : PosIx) (heaterOn request : Bool),
    let u := testViolation p heaterOn s
    let asked (t : State) : State :=
      { t with pos := t.pos.set p.val { t.vol p with heatRequest := request } }
    (u.vol p).grant = .releasing → p ∉ u.heat.queue →
    ((heaterOn = true ∨ (u.vol p).heatOffStands = true) → heatTakesState p heaterOn request s = asked u)
    ∧ (heaterOn = false → (u.vol p).heatOffStands = false →
      let w := activatePending (ended u p)
      let again : Prop := request = true ∧ u.sessionIs p .running = true ∧ 0 < u.heaterDemand p
      (again → heatTakesState p heaterOn request s = asked (evaluate { w with
        pos := w.pos.set p.val { w.vol p with grant := .queued, changed := true }
        heat := { w.heat with queue := w.heat.queue ++ [p] } }))
      ∧ (¬ again → heatTakesState p heaterOn request s = asked (evaluate w))))
  ∧ ∀ s : State, committedFell s = evaluate (activatePending s)
    ∧ (s.ret.pendingBudget = none → activatePending s = s)
    ∧ ∀ n, s.ret.pendingBudget = some n →
      (n < s.committed → activatePending s = s ∧ committedFell s = s)
      ∧ (s.committed ≤ n → activatePending s = { s with
          trail := s.ret :: s.trail, ret := { s.ret with budget := n, pendingBudget := none } })

/-- LOAD FAULT CLASS sets the entry of a code 1 to 15 and touches no active fault (R142). CLEAR FAULT clears an active
fault whose cause is no longer seen: the changed flag is set, and unless the position is OUT_OF_SERVICE an ENABLE is
asked for (R27, R153, R154). Choices of the model in it: log entries 3, 7 and 23. -/
def Obligations.FaultClassLoadedAndFaultCleared : Prop :=
  (∀ (tag code sev pol auto : Byte) (s : State), LinkReady s →
      ((code.toNat = 0 ∨ 15 < code.toNat ∨ 2 < sev.toNat ∨ 2 < pol.toNat ∨ 1 < auto.toNat) →
        exec (.loadFaultClass tag code sev pol auto) s = .next (s.refusedWith 0x50#8 tag .badValue))
      ∧ (1 ≤ code.toNat → code.toNat ≤ 15 → sev.toNat ≤ 2 → pol.toNat ≤ 2 → auto.toNat ≤ 1 →
        ∃ (t : State) (classes : Vector FaultClass 15), exec (.loadFaultClass tag code sev pol auto) s = .next t
          ∧ t = State.replied
              { s with trail := [s.ret], ret := { s.ret with classes := classes } } 0x50#8 tag []
          ∧ (t.classOf code.toNat).severity.code = sev.toNat
          ∧ Policy.ofCode pol = some (t.classOf code.toNat).policy
          ∧ (t.classOf code.toNat).autoClear = (auto == 1#8)
          ∧ ∀ k, k ≠ code.toNat → t.classOf k = s.classOf k))
  ∧ (∀ (tag addr : Byte) (s : State), LinkReady s →
      ((∀ p, posOf addr = some p → s.configured p = false ∨ (s.record p).fault = none) →
        exec (.clearFault tag addr) s = .next (s.refusedWith 0x51#8 tag .notFound))
      ∧ ∀ p f, posOf addr = some p → s.configured p = true → (s.record p).fault = some f →
        let v := s.vol p
        let seen := ((1 ≤ f.code ∧ f.code ≤ 15) ∧ ∃ x, v.lastState = some x ∧ x.fault = f.code)
          ∨ (f.code = 16 ∧ v.bus.presence = .lost)
          ∨ (f.code = 17 ∧ ∃ x, v.lastState = some x ∧ x.heaterOn = true)
          ∨ (f.code = 18 ∧ ∃ x c, v.lastState = some x ∧ (s.record p).config = some c ∧ x.cls ≠ c.cls)
        (seen → exec (.clearFault tag addr) s = .next (s.refusedWith 0x51#8 tag .refusedState))
        ∧ (¬ seen →
          let q := queueDisplay .enable v.orders
          exec (.clearFault tag addr) s
            = .next (State.replied
                { s with
                  trail := [s.ret]
                  ret := { s.ret with
                    positions := s.ret.positions.set p.val { s.record p with fault := none } }
                  pos := s.pos.set p.val
                    (if (s.record p).oos then { v with changed := true }
                     else { v with orders := q.1, owed := q.2, changed := true }) } 0x51#8 tag [])))

/-- READ FAULTS gives the oldest records, up to 8, with the overflow flag, and removes them and clears the flag; READ
SETTLEMENTS gives the oldest records, up to 8, with the number held, and changes nothing (R158, R164). A fault record
takes 10 bytes and a settlement record 29, their fields in the order of R196, high byte first, an absent one all ones
(R155, R159, R193). Choices of the model in it: log entries 3, 7 and 23. -/
def Obligations.ReadFaultsAndSettlements : Prop :=
  (∀ (tag : Byte) (s : State), LinkReady s →
    exec (.readFaults tag) s
      = .next (State.replied
          { s with
            trail := [s.ret]
            ret := { s.ret with faults := s.ret.faults.drop 8, overflow := false } } 0x52#8 tag
          (num1 (s.ret.faults.take 8).length :: flag1 s.ret.overflow
            :: (s.ret.faults.take 8).flatMap FaultRecord.bytes))
    ∧ exec (.readSettlements tag) s
      = .next (State.replied { s with trail := [] } 0x60#8 tag
          (num1 s.ret.settlements.length :: num1 (s.ret.settlements.take 8).length
            :: (s.ret.settlements.take 8).flatMap Settlement.bytes)))
  ∧ (let two (n : Nat) : List Byte := [BitVec.ofNat 8 (n / 256), BitVec.ofNat 8 n]
     let three (n : Nat) : List Byte := [BitVec.ofNat 8 (n / 65536), BitVec.ofNat 8 (n / 256), BitVec.ofNat 8 n]
     let may1 (n : Option Nat) : Byte := match n with
       | none => 0xFF#8
       | some n => BitVec.ofNat 8 n
     let may2 (n : Option Nat) : List Byte := match n with
       | none => [0xFF#8, 0xFF#8]
       | some n => two n
     (∀ r : FaultRecord,
        let severity : Nat := match r.severity with
          | .notice => 0
          | .lockout => 1
          | .safety => 2
        let detail : Nat := match r.detail with
          | none => 0
          | some .silent => 1
          | some .damaged => 2
        r.bytes.length = 10
        ∧ r.bytes = two r.number
            ++ [BitVec.ofNat 8 r.code, may1 (r.position.map fun p => p.val + 1), BitVec.ofNat 8 severity]
            ++ may2 r.minute ++ may2 r.settlement ++ [BitVec.ofNat 8 detail])
     ∧ ∀ r : Settlement,
        let cls : Nat := match r.cclass with
          | .resident => 0
          | .staff => 1
          | .service => 2
        let reason : Nat := match r.reason with
          | .completed => 0
          | .fault => 1
          | .abandoned => 2
          | .doneTimeout => 3
          | .cycleLost => 4
          | .powerLoss => 5
          | .restarted => 6
          | .operator => 7
        r.bytes.length = 29
        ∧ r.bytes = two r.number ++ [r.position.val + 1, cls, r.program].map (BitVec.ofNat 8)
            ++ (List.range 8).map (fun i => BitVec.ofNat 8 (r.cardId.toNat / 256 ^ (7 - i)))
            ++ may2 r.startMinute
            ++ [r.m, r.d, r.purchased, r.heated, r.cool, r.elapsed].map (BitVec.ofNat 8)
            ++ three r.hold ++ three r.charged ++ [BitVec.ofNat 8 reason, may1 r.faultCode])

/-- RELEASE THROUGH removes every record from the oldest to the one numbered k, in queue order, and the next
settlement number stays (R165). Choices of the model in it: log entries 3, 7 and 23. -/
def Obligations.ReleaseThroughRemovesPrefix : Prop :=
  ∀ (tag : Byte) (k : BitVec 16) (s : State), LinkReady s →
    ((k.toNat = 0 ∨ 65534 < k.toNat) →
      exec (.releaseThrough tag k) s = .next (s.refusedWith 0x61#8 tag .badValue))
    ∧ (1 ≤ k.toNat → k.toNat ≤ 65534 →
      ((∀ r ∈ s.ret.settlements, r.number ≠ k.toNat) →
        exec (.releaseThrough tag k) s = .next (s.refusedWith 0x61#8 tag .notFound))
      ∧ ∀ before r after, s.ret.settlements = before ++ r :: after → r.number = k.toNat →
        (∀ x ∈ before, x.number ≠ k.toNat) →
        exec (.releaseThrough tag k) s
          = .next (State.replied
              { s with trail := [s.ret], ret := { s.ret with settlements := after } } 0x61#8 tag
              [num1 after.length]))

/-- FORCE END of a STARTING session cancels it, with no settlement record and the reason MACHINE_NOT_READY. FORCE END
of any other session closes it OPERATOR under the policy named: the card is charged and its hold released, the record
is appended with the next number, an open extension is declined MACHINE_FAULT, the wind-down mark is set and a HALT
stands in the order queue (R69, R102, R115, R117, R118, R119). That a position with no open session is answered
NOT_FOUND whatever the policy byte is the model's choice. Choices of the model in it: log entries 3 and 15. -/
def Obligations.ForceEndEndsSession : Prop :=
  ∀ (tag addr policy : Byte) (s : State), LinkReady s →
    ((∀ p, posOf addr = some p → s.configured p = false ∨ s.session p = none) →
      exec (.forceEnd tag addr policy) s = .next (s.refusedWith 0x70#8 tag .notFound))
    ∧ ∀ p ses, posOf addr = some p → s.configured p = true → s.session p = some ses →
      (1 < policy.toNat → exec (.forceEnd tag addr policy) s = .next (s.refusedWith 0x70#8 tag .badValue))
      ∧ (policy.toNat ≤ 1 → ses.state = .starting → ∃ t,
        exec (.forceEnd tag addr policy) s = .next t
        ∧ SessionCancelled s t p ses ∧ RoomStep s { t with link := s.link }
        ∧ Declined s t ses.term ses.reqTag .machineNotReady ses.cardId)
      ∧ (policy.toNat ≤ 1 → ses.state ≠ .starting → HeatLaw s → QueueLaw (s.vol p).orders → NumberFree s →
        let charge := if policy = 0#8 then 0 else ses.unusedCharge
        ∃ t, exec (.forceEnd tag addr policy) s = .next t
          ∧ SessionClosed s t p ses charge .operator none
          ∧ (∀ x, ses.ext = some x → Declined s t x.term x.reqTag .machineFault ses.cardId)
          ∧ RoomStep s { t with link := s.link }
          ∧ (t.vol p).windDown = true ∧ (t.vol p).haltStands = true ∧ (t.vol p).grant ≠ .granted)
/-! ## The room bus -/

/-- When a visit may begin, its node is not LOST and heads the candidates, VISIT moves the slot on, takes the node's
address into the pointer and sends one frame at the rate in force: an ASK while the tag is not learned or nothing
waits, else the head item, with its own tag or with the counter raised by 1 (R2, R3, R12, R13, R16, R17). The frames
are those of chapter 12: the address with its mark bit, kind, length, payload and CRC-16; an order's code and fields;
the eleven bytes of an ANSWER behind its tag; the characters of a TEXT packed in base 40, three to two bytes (R193,
R194, R195). A character takes 11 positions on the line: a start bit at space, its data low bit first, the mark bit
and a stop bit at mark (R1). Choices of the model in it: log entries 7 and 13. -/
def Obligations.VisitSendsHeadItem : Prop :=
  (∀ (s : State) (node : Node) (rest : List Node), s.live = true → s.bus.visit = none →
    s.bus.listening = true → s.bus.jammed = false → s.candidates = node :: rest →
    (s.nodeBus node).presence ≠ .lost →
    let begun (tag : Option ItemTag) (frame : List BusChar) (m : Option PosIx) (t : Option TermIx) :
        BusState :=
      { s.bus with
        machinePtr := m
        terminalPtr := t
        slot := s.bus.slot.next
        space := none
        visit := some
          { node := node, tag := tag, frame := frame.map charTime, rate := s.ret.config.busRate, phase := .sending,
            removed := false } }
    (∀ p, node = .machine p →
      let v := s.vol p
      ((v.bus.learned = false ∨ v.orders = []) →
        exec .visit s = .next { s with
          trail := []
          bus := begun none (busFrame node 0x01#8 []) (some p) s.bus.terminalPtr })
      ∧ ∀ o os, v.bus.learned = true → v.orders = o :: os →
        let tag := o.tag.getD (v.bus.counter + 1#4)
        exec .visit s = .next { s with
          trail := []
          pos := s.pos.set p.val
            { v with
              orders := { o with tag := some tag } :: os
              bus := { v.bus with counter := if o.tag.isSome then v.bus.counter else tag } }
          bus := begun (some tag) (busFrame node 0x02#8 (tag.setWidth 8 :: o.body.bytes)) (some p)
            s.bus.terminalPtr })
    ∧ (∀ t, node = .terminal t →
      let v := s.terminal t
      ((v.bus.learned = false ∨ v.outbox = []) →
        exec .visit s = .next { s with
          trail := []
          bus := begun none (busFrame node 0x01#8 []) s.bus.machinePtr (some t) })
      ∧ ∀ i is, v.bus.learned = true → v.outbox = i :: is →
        let tag := i.tag.getD (v.bus.counter + 1#4)
        exec .visit s = .next { s with
          trail := []
          term := s.term.set t.val
            { v with
              outbox := { i with tag := some tag } :: is
              bus := { v.bus with counter := if i.tag.isSome then v.bus.counter else tag } }
          bus := begun (some tag) (busFrame node i.body.bytes.1 (tag.setWidth 8 :: i.body.bytes.2))
            s.bus.machinePtr (some t) }))
  ∧ (∀ (node : Node) (kind : Byte) (payload : List Byte),
    let body := kind :: BitVec.ofNat 8 payload.length :: payload
    let crc := (crc16 body).toNat
    let address : Nat := match node with
      | .machine p => p.val + 1
      | .terminal t => t.val + 25
    busFrame node kind payload
      = { data := BitVec.ofNat 8 address, mark := true, framing := false }
          :: (body ++ [BitVec.ofNat 8 (crc / 256), BitVec.ofNat 8 crc]).map fun b =>
            { data := b, mark := false, framing := false })
  ∧ (∀ c : BusChar, let t := charTime c
    t.getLsbD 0 = false ∧ (∀ i < 8, t.getLsbD (i + 1) = c.data.getLsbD i) ∧ t.getLsbD 9 = c.mark
      ∧ t.getLsbD 10 = !c.framing)
  ∧ (let shifted (c : BitVec 16) : BitVec 16 := if c.msb then (c <<< 1) ^^^ 0x1021#16 else c <<< 1
     crc16 [] = 0xFFFF#16
     ∧ (∀ (bs : List Byte) (b : Byte), crc16 (bs ++ [b]) = shifted^[8] (crc16 bs ^^^ (b.setWidth 16 <<< 8)))
     ∧ crc16 [0x31#8, 0x32#8, 0x33#8, 0x34#8, 0x35#8, 0x36#8, 0x37#8, 0x38#8, 0x39#8] = 0x29B1#16)
  ∧ (∀ (program minutes : Nat) (options : OptionSet),
    OrderBody.bytes (.start program options minutes)
        = [1, program, options.toNat, minutes].map (BitVec.ofNat 8)
      ∧ OrderBody.bytes (.extend minutes) = [2, minutes].map (BitVec.ofNat 8)
      ∧ [OrderBody.finish, .heatOn, .heatOff, .halt, .disable, .enable].map OrderBody.bytes
        = [[3#8], [4#8], [5#8], [6#8], [7#8], [8#8]])
  ∧ (∀ (a : Answer) (busy : Bool),
    let reasons : List DeclineReason :=
      [.noSuchMachine, .unknownCard, .cardBlocked, .roomClosed, .machineUnavailable, .machineBusy, .noSuchProgram,
       .machineNotReady, .settlementFull, .roomAtCapacity, .insufficientFunds, .dailyLimit, .topupAtMaximum,
       .machineNoResponse, .machineFault, .terminalBusy]
    let three (n : Nat) : List Byte := [BitVec.ofNat 8 (n / 65536), BitVec.ofNat 8 (n / 256), BitVec.ofNat 8 n]
    ∃ outcome reason : Byte,
      ItemBody.bytes (.answer a busy)
        = (0x03#8, [a.reqTag, outcome, reason] ++ three a.amount
            ++ [BitVec.ofNat 8 a.minutes, BitVec.ofNat 8 a.options.toNat]
            ++ (match a.available with
              | none => [0xFF#8, 0xFF#8, 0xFF#8]
              | some n => three n))
      ∧ (a.decline = none → outcome = 0#8 ∧ reason = 0#8)
      ∧ ∀ i why, reasons[i]? = some why → a.decline = some why → outcome = 1#8 ∧ reason = BitVec.ofNat 8 (i + 1))
  ∧ ∀ chars : List Byte,
    let symbol (i : Nat) : Nat := (chars[i]?.map fun b =>
      let n := b.toNat
      if n = 0x20 then 1
      else if n = 0x2D then 39
      else if n = 0x2E then 38
      else if 0x30 ≤ n ∧ n ≤ 0x39 then n - 0x30 + 28
      else if 0x41 ≤ n ∧ n ≤ 0x5A then n - 0x41 + 2
      else if 0x61 ≤ n ∧ n ≤ 0x7A then n - 0x61 + 2
      else 0).getD 0
    let group (k : Nat) : Nat := symbol (3 * k) * 1600 + symbol (3 * k + 1) * 40 + symbol (3 * k + 2)
    (ItemBody.text chars).bytes
      = (0x04#8, BitVec.ofNat 8 chars.length
          :: (List.range ((chars.length + 2) / 3)).flatMap fun k =>
            [BitVec.ofNat 8 (group k / 256), BitVec.ofNat 8 (group k)])

/-- A slot is offered to every configured node of its kind, each once, in rising order from above the pointer and then
from the lowest; every slot is of the one kind that has a configured node (R12, R13). The first in that order that is
not LOST or whose skip count has reached 7 takes it; each LOST node before it has its skip count raised by 1, and no
other node's bus state changes. A slot that all pass produces no visit: both pointers stay and the next slot is filled
(R14). With a node configured, a VISIT that may begin always begins one. Choices of the model in it: log entries 4, 7
and 32. -/
def Obligations.SlotOfferedInTurn : Prop :=
  (∀ (s : State) (p : PosIx) (rest : List Node), s.candidates = .machine p :: rest →
    let above (q : PosIx) : Prop := ∀ a, s.bus.machinePtr = some a → a < q
    s.configured p = true
    ∧ ((∀ t, s.termConfigured t = false) ∨ s.bus.slot ≠ .terminal)
    ∧ ((above p ∧ ∀ q, s.configured q = true → above q → p ≤ q)
      ∨ ((∀ q, s.configured q = true → ¬ above q) ∧ ∀ q, s.configured q = true → p ≤ q)))
  ∧ (∀ (s : State) (t : TermIx) (rest : List Node), s.candidates = .terminal t :: rest →
    let above (u : TermIx) : Prop := ∀ a, s.bus.terminalPtr = some a → a < u
    s.termConfigured t = true
    ∧ ((∀ q, s.configured q = false) ∨ s.bus.slot = .terminal)
    ∧ ((above t ∧ ∀ u, s.termConfigured u = true → above u → t ≤ u)
      ∨ ((∀ u, s.termConfigured u = true → ¬ above u) ∧ ∀ u, s.termConfigured u = true → t ≤ u)))
  ∧ (∀ (s : State) (before : List Node) (node : Node) (after : List Node),
    (before ++ node :: after).Nodup →
    (∀ x ∈ before, (s.nodeBus x).presence = .lost ∧ (s.nodeBus x).skip < 7) →
    ((s.nodeBus node).presence ≠ .lost ∨ 7 ≤ (s.nodeBus node).skip) →
    let r := offer (before ++ node :: after) s
    r.2 = some node
    ∧ (∀ x ∈ before, r.1.nodeBus x = { s.nodeBus x with skip := (s.nodeBus x).skip + 1 })
    ∧ r.1.nodeBus node
        = (if (s.nodeBus node).presence = .lost then { s.nodeBus node with skip := 0 } else s.nodeBus node)
    ∧ ∀ x, x ∉ before → x ≠ node → r.1.nodeBus x = s.nodeBus x)
  ∧ (∀ s : State,
    let machine (p : PosIx) : Prop := s.configured p = true
    let terminal (t : TermIx) : Prop := s.termConfigured t = true
    let machineSlot : Prop :=
      (∃ p, machine p) ∧ ((∀ t, ¬ terminal t) ∨ s.bus.slot = .machine1 ∨ s.bus.slot = .machine2)
    let terminalSlot : Prop := (∃ t, terminal t) ∧ ((∀ p, ¬ machine p) ∨ s.bus.slot = .terminal)
    (machineSlot → ∃ above below : List PosIx, s.candidates = (above ++ below).map .machine
      ∧ above.Pairwise (· < ·) ∧ below.Pairwise (· < ·)
      ∧ (∀ p, p ∈ above ↔ machine p ∧ ∀ a, s.bus.machinePtr = some a → a < p)
      ∧ (∀ p, p ∈ below ↔ machine p ∧ ∃ a, s.bus.machinePtr = some a ∧ p ≤ a))
    ∧ (terminalSlot → ∃ above below : List TermIx, s.candidates = (above ++ below).map .terminal
      ∧ above.Pairwise (· < ·) ∧ below.Pairwise (· < ·)
      ∧ (∀ t, t ∈ above ↔ terminal t ∧ ∀ a, s.bus.terminalPtr = some a → a < t)
      ∧ (∀ t, t ∈ below ↔ terminal t ∧ ∃ a, s.bus.terminalPtr = some a ∧ t ≤ a))
    ∧ (s.candidates = [] ↔ (∀ p, ¬ machine p) ∧ ∀ t, ¬ terminal t)
    ∧ s.candidates.Nodup)
  ∧ ∀ s : State, s.live = true → s.bus.visit = none → s.bus.listening = true → s.bus.jammed = false →
    (s.candidates = [] → exec .visit s = .next { s with trail := [] })
    ∧ (s.candidates ≠ [] → ∃ t v, exec .visit s = .next t ∧ t.bus.visit = some v
      ∧ v.phase = .sending ∧ s.nodeConfigured v.node = true)
    ∧ (∀ node, (offer s.candidates s).2 = some node →
      let u := (offer s.candidates s).1
      exec .visit s
        = .next (beginVisit node { u with trail := [], bus := { u.bus with slot := u.bus.slot.next } }))
    ∧ (s.candidates ≠ [] →
      (∀ x ∈ s.candidates, (s.nodeBus x).presence = .lost ∧ (s.nodeBus x).skip < 7) →
      ∃ u : State, exec .visit s = exec .visit u
        ∧ u = { s with pos := u.pos, term := u.term, bus := { s.bus with slot := s.bus.slot.next } }
        ∧ (∀ p, u.vol p = { s.vol p with bus := u.nodeBus (.machine p) })
        ∧ (∀ t, u.terminal t = { s.terminal t with bus := u.nodeBus (.terminal t) })
        ∧ (∀ x ∈ s.candidates, u.nodeBus x = { s.nodeBus x with skip := (s.nodeBus x).skip + 1 })
        ∧ ∀ x, x ∉ s.candidates → u.nodeBus x = s.nodeBus x)

/-- FRAME_SENT opens the reply window (R4). A character time at space throughout is a break, in whichever row it
stands (R1). A break with no reply going makes the receiver ignore the line, and in a window or a reply it ends the
reply too; RECEIVER_RESUME listens again (R8). A stretch of space that reaches the jam limit jams the bus: the visit
is abandoned and BUS_JAMMED is raised once; JAM_END clears the jam and listens again (R9, R10). Choices of the model
in it: log entries 7, 12, 13, 29 and 36. -/
def Obligations.BusLineRows : Prop :=
  ∀ s : State, s.live = true →
    (∀ v, s.bus.visit = some v → v.phase = .sending →
      exec .frameSent s
        = .next { s with trail := [], bus := { s.bus with visit := some { v with phase := .window } } })
    ∧ (∀ times, (busChars times).2 = true →
      exec (.replyComplete times) s = exec (.breakIndication times) s
      ∧ exec (.replyGap times) s = exec (.breakIndication times) s)
    ∧ (∀ times, s.bus.listening = true → s.bus.visit = none →
      exec (.breakIndication times) s = .next { s with
        trail := [], bus := { s.bus with listening := false, space := some (s.bus.space.getD 0) } })
    ∧ (∀ v old times, let chars := (busChars times).1
      s.bus.listening = true → s.bus.visit = some v → v.hasReceived old →
      replyIsComplete (old ++ chars) = false →
      exec (.breakIndication times) s = .next { s with
        trail := []
        bus := { s.bus with
          listening := false
          space := some (s.bus.space.getD 0)
          visit := some { v with phase := .reply (old ++ chars) true } } })
    ∧ (s.bus.listening = false → s.bus.jammed = false →
      (∀ v, s.bus.visit = some v → ∀ chars, v.phase ≠ .reply chars true) →
      exec .receiverResume s
        = .next { s with trail := [], bus := { s.bus with listening := true, space := none } })
    ∧ (∀ ms, s.bus.jammed = false → (∀ v, s.bus.visit = some v → v.phase ≠ .sending) →
      exec (.busJammed ms) s = .next
        (if ms < s.ret.config.jamLimit then
          { s with trail := [], bus := { s.bus with space := some ms } }
         else
          appendFault 22 none .notice none none
            { s with
              trail := []
              bus := { s.bus with
                jammed := true, listening := false, visit := none, space := some ms } }))
    ∧ (∀ ms, s.bus.jammed = true → exec (.busJammed ms) s = .next { s with trail := [] })
    ∧ (s.bus.jammed = true →
      exec .jamEnd s = .next { s with
        trail := [], bus := { s.bus with jammed := false, listening := true, space := none } })

/-- The visits that end without a VALID reply: a window that closes is SILENT; a complete reply with an error, a gap,
and a break whose line has recovered are DAMAGED. The sequencer counts the miss, and nothing where the node was
removed meanwhile. Characters that do not complete a reply are kept (R4, R5, R7, R8, R15). Choices of the model in it:
log entries 7, 13, 17 and 29. -/
def Obligations.FailedVisitIsMissed : Prop :=
  ∀ (s : State) (v : Visit), s.live = true → s.bus.visit = some v →
    let missed (kind : MissKind) (s : State) : State := if v.removed then s else missNode v.node kind s
    (v.phase = .window → exec .replyWindowClose s = .next (missed .silent s.visitEnded))
    ∧ (∀ old times chars, busChars times = (chars, false) → s.bus.listening = true → v.hasReceived old →
      (replyIsComplete (old ++ chars) = true → classify v.node (old ++ chars) false false = none →
        exec (.replyComplete times) s = .next (missed .damaged s.visitEnded)
        ∧ exec (.replyGap times) s = .next (missed .damaged s.visitEnded))
      ∧ (replyIsComplete (old ++ chars) = false → old ++ chars ≠ [] →
        exec (.replyGap times) s = .next (missed .damaged s.visitEnded)
        ∧ exec (.replyComplete times) s = .next { s with
            trail := []
            bus := { s.bus with
              space := none, visit := some { v with phase := .reply (old ++ chars) false } } }))
    ∧ (∀ chars, s.bus.listening = false → s.bus.jammed = false → v.phase = .reply chars true →
      exec .receiverResume s = .next (missed .damaged
        { s.visitEnded with bus := { s.visitEnded.bus with listening := true } }))

/-- A miss raises the miss count, to at most 15. At the lost limit the node becomes LOST with its last miss kind: a
terminal's outbox is emptied and its request dropped, and at a machine NODE_LOST becomes active unless another fault
is, is recorded with the miss kind, and DISABLE is asked for (R20, R21, R27, R48, R144, R148). A STARTING session is
cancelled MACHINE_FAULT; any other, where no fault was active, is closed FAULT under the policy UNUSED (R106, R118).
The grant is withdrawn: a QUEUED one becomes NONE, and a GRANTED one RELEASING with a HEAT_OFF in the queue (R129,
R136). Choices of the model in it: log entries 7, 23 and 33. -/
def Obligations.MissesMakeNodeLost : Prop :=
  ∀ (s : State) (node : Node) (kind : MissKind),
    let b := s.nodeBus node
    let lost : NodeBus :=
      { b with miss := min (b.miss + 1) 15, presence := .lost, lastMiss := some kind, skip := 0 }
    (b.presence = .lost →
      missNode node kind s = s.setNodeBus node fun b => { b with miss := min (b.miss + 1) 15 })
    ∧ (b.presence ≠ .lost → b.miss + 1 < s.ret.config.lostLimit →
      missNode node kind s = s.setNodeBus node fun b => { b with miss := b.miss + 1 })
    ∧ (b.presence ≠ .lost → s.ret.config.lostLimit ≤ b.miss + 1 →
      (∀ t, node = .terminal t →
        let v := s.terminal t
        missNode node kind s = { s with
          term := s.term.set t.val
            { request := none
              lastTag := if v.request.isSome then v.request else v.lastTag
              outbox := []
              bus := lost } })
      ∧ (∀ p, node = .machine p → s.session p = none → (s.record p).fault = none →
          (s.vol p).grant = .none →
        let v := s.vol p
        let q := queueDisplay .disable v.orders
        missNode node kind s = appendFault 16 (some p) .lockout none (some kind) { s with
          trail := s.ret :: s.trail
          ret := { s.ret with
            positions := s.ret.positions.set p.val
              { s.record p with
                fault := some { code := 16, severity := .lockout, autoClear := true } } }
          pos := s.pos.set p.val
            (if (s.record p).oos then { v with bus := lost, changed := true }
             else { v with bus := lost, changed := true, orders := q.1, owed := q.2 }) })
      ∧ (∀ p, node = .machine p → HeatLaw s → QueueLaw (s.vol p).orders → NumberFree s →
        let t := missNode node kind s
        let alone : Prop := (s.record p).fault = none
        let recorded (number : Option Nat) : Prop :=
          t.ret.faults.getLast? = some
            { number := s.ret.nextFault, code := 16, position := some p, severity := .lockout
              minute := s.minuteNow, settlement := number, detail := some kind }
        (t.vol p).bus = lost ∧ (t.vol p).changed = true
        ∧ RoomStepAndFault s { t with ret := { t.ret with positions := s.ret.positions } }
        ∧ (∀ q, q ≠ p → t.record q = s.record q ∧ t.session q = s.session q)
        ∧ (alone → t.record p = { s.record p with
            fault := some { code := 16, severity := .lockout, autoClear := true } })
        ∧ (¬ alone → t.record p = s.record p)
        ∧ (s.session p = none → t.session p = none ∧ recorded none
          ∧ t.ret.cards = s.ret.cards ∧ t.ret.settlements = s.ret.settlements)
        ∧ (∀ ses, s.session p = some ses →
          (ses.state = .starting →
            t.session p = none ∧ recorded none ∧ t.ret.settlements = s.ret.settlements
            ∧ CardTook s t ses.cardId (fun c => { c with held := c.held - ses.hold })
            ∧ Declined s t ses.term ses.reqTag .machineFault ses.cardId)
          ∧ (ses.state ≠ .starting → alone →
            SessionClosed s t p ses ses.unusedCharge .fault (some 16)
            ∧ recorded (some s.ret.nextSettlement)
            ∧ ∀ x, ses.ext = some x → Declined s t x.term x.reqTag .machineFault ses.cardId)
          ∧ (ses.state ≠ .starting → ¬ alone → recorded none
            ∧ ((s.vol p).orders.length < 4 → t.session p = some ses)))
        ∧ ((s.vol p).grant = .releasing → (t.vol p).grant = .releasing)
        ∧ ((s.vol p).grant = .queued ∨ (s.vol p).grant = .none →
          (t.vol p).grant = .none ∧ p ∉ t.heat.queue)
        ∧ ((s.vol p).grant = .granted →
          ((∀ o ∈ (s.vol p).orders, o.tag = none → o.body ≠ .heatOn) →
            (t.vol p).grant = .releasing ∧ (t.vol p).heatOffStands = true)
          ∧ (alone ∨ s.session p = none → (t.vol p).grant = .releasing ∨ (t.vol p).grant = .none))))

/-- A complete reply without an error is VALID and its fields are taken in the order of R20 (R7, R20): presence; then
the first tag echoed is learned, or the item the visit carried is confirmed where it is at the head and the echo is
its tag, and a differing echo confirms nothing (R17, R18, R19); then a STATE is stored and goes to the fault unit, the
session table and the heat budget unit in turn, a CARD to the terminal table (R31, R49). A machine that becomes
PRESENT is told its display order, and an active NODE_LOST clears (R21, R27, R152). A NIL that confirms nothing does
no more; a quiet STATE leaves everything but the marks it clears (R29, R116, R143). The VALID reply of a node that was
removed during its visit is discarded (R15). Choices of the model in it: log entries 7, 13, 17, 20, 23 and 37. -/
def Obligations.ValidReplyTaken : Prop :=
  (∀ (s : State) (v : Visit) (old chars : List BusChar) (times : List BusTime)
    (f : ReplyFields), s.live = true → busChars times = (chars, false) →
    s.bus.visit = some v → v.removed = false → s.bus.listening = true → v.hasReceived old →
    replyIsComplete (old ++ chars) = true → classify v.node (old ++ chars) false false = some f →
    exec (.replyComplete times) s = .next (takeValid v.node v.tag f s.visitEnded)
    ∧ exec (.replyGap times) s = .next (takeValid v.node v.tag f s.visitEnded))
  ∧ (∀ (s : State) (v : Visit) (old chars : List BusChar) (times : List BusTime)
    (f : ReplyFields), s.live = true → busChars times = (chars, false) →
    s.bus.visit = some v → v.removed = true → s.bus.listening = true → v.hasReceived old →
    replyIsComplete (old ++ chars) = true → classify v.node (old ++ chars) false false = some f →
    exec (.replyComplete times) s = .next s.visitEnded ∧ exec (.replyGap times) s = .next s.visitEnded)
  ∧ (∀ (s : State) (t : TermIx) (carried : Option ItemTag) (echo : ItemTag),
    let v := s.terminal t
    (carried = none ∨ v.bus.learned = false) →
    takeValid (.terminal t) carried (.nil echo) s = { s with
      term := s.term.set t.val
        { v with
          bus := { v.bus with
            presence := .present
            miss := 0
            skip := 0
            counter := if v.bus.learned then v.bus.counter else echo
            learned := true } } })
  ∧ (∀ (s : State) (p : PosIx) (cfg : PosConfig) (r : StateReport),
    let v := s.vol p
    (s.record p).config = some cfg → (s.record p).fault = none → s.session p = none → v.grant = .none →
    v.bus.presence = .present → v.bus.learned = true → r.last.cls = cfg.cls → r.last.fault = 0 →
    r.last.heaterOn = false → r.last.mstate ≠ .running →
    takeValid (.machine p) none (.state r) s = { s with
      pos := s.pos.set p.val
        { v with
          lastState := some r.last
          mismatch := false
          prevFault := 0
          bus := { v.bus with miss := 0, skip := 0 }
          heatRequest := r.last.heatRequest
          violations := if v.armed = true ∧ 0 < cfg.heater then 0 else v.violations
          unpaid := false
          windDown := v.windDown && r.last.mstate == .paused } })
  ∧ (∀ (s : State) (node : Node) (carried : Option ItemTag) (f : ReplyFields) (e : ItemTag),
    ((∃ r, f = .state r ∧ r.echo = e) ∨ f = .nil e ∨ ∃ r, f = .card e r) →
    let u := heardNode node s
    let learned (b : NodeBus) : NodeBus := { b with counter := e, learned := true }
    (∀ p, node = .machine p → ∀ r, f = .state r →
      let v := u.vol p
      let confirms : Prop := carried = some e ∧ ∃ o os, v.orders = o :: os ∧ o.tag = some e
      (v.bus.learned = false →
        takeValid node carried f s
          = dispatchState p r.last { u with pos := u.pos.set p.val { v with bus := learned v.bus } })
      ∧ (v.bus.learned = true → confirms →
        takeValid node carried f s = dispatchState p r.last (confirmOrder p r.outcome u))
      ∧ (v.bus.learned = true → ¬ confirms → takeValid node carried f s = dispatchState p r.last u))
    ∧ (∀ t, node = .terminal t → (∀ r, f ≠ .state r) →
      let v := u.terminal t
      let confirms : Prop := carried = some e ∧ ∃ i is, v.outbox = i :: is ∧ i.tag = some e
      let taken (w : State) : State :=
        match f with
        | .card _ r => takeCard t r w
        | _ => w
      (v.bus.learned = false →
        takeValid node carried f s
          = taken { u with term := u.term.set t.val { v with bus := learned v.bus } })
      ∧ (v.bus.learned = true → confirms → takeValid node carried f s = taken (confirmItem t u))
      ∧ (v.bus.learned = true → ¬ confirms → takeValid node carried f s = taken u)))
  ∧ (∀ (s : State) (p : PosIx) (x : LastState),
    dispatchState p x s
      = heatTakesState p x.heaterOn x.heatRequest
          (sessionTakesState p x.mstate
            (faultTakesField p x.fault x.mstate
              (faultTakesClass p x.cls
                { s with pos := s.pos.set p.val { s.vol p with lastState := some x } }))))
  ∧ ∀ (s : State) (node : Node),
    let heard (b : NodeBus) : NodeBus := { b with presence := .present, miss := 0, skip := 0 }
    (∀ t, node = .terminal t → heardNode node s = { s with
      term := s.term.set t.val { s.terminal t with bus := heard (s.terminal t).bus } })
    ∧ ∀ p, node = .machine p →
      let v := s.vol p
      let r := s.record p
      let q := queueDisplay (if r.oos || r.fault.isSome then .disable else .enable) v.orders
      (v.bus.presence = .present →
        heardNode node s = { s with pos := s.pos.set p.val { v with bus := heard v.bus } })
      ∧ (v.bus.presence ≠ .present → (∀ f, r.fault = some f → f.code ≠ 16) →
        heardNode node s = { s with
          pos := s.pos.set p.val
            { v with bus := heard v.bus, changed := true, orders := q.1, owed := q.2 } })
      ∧ (v.bus.presence ≠ .present → ∀ f, r.fault = some f → f.code = 16 →
        let z := if r.oos then q else queueDisplay .enable q.1
        heardNode node s = { s with
          trail := s.ret :: s.trail
          ret := { s.ret with positions := s.ret.positions.set p.val { r with fault := none } }
          pos := s.pos.set p.val
            { v with bus := heard v.bus, changed := true, orders := z.1, owed := z.2 } })

/-- A reply whose characters are those of the node, of a kind and a length the node may send, is complete exactly at
its last character and VALID, with the fields its payload carries (R5, R6, R7). A STATE fails the CONTENT test exactly
for the values of R194, and its fields are read as R29, R30 and R194 give; so are those of NIL and CARD. A complete
reply is VALID exactly when its error set is empty: each failed test of R6, a gap and a break make it DAMAGED,
complete or not. The characters are sampled from the line, position by position: a stop position at space is a framing
error, a time at space throughout a break, after which the line is ignored (R1, R8). Choice of the model in it: log
entry 13. -/
def Obligations.ReplyFieldsRead : Prop :=
  (∀ (node : Node) (kind : Byte) (payload : List Byte) (f : ReplyFields),
    kindAllowed node kind = true → lengthAllowed kind payload.length = true →
    parseFields kind payload = some f →
    let chars := replyChars node kind payload
    replyIsComplete chars = true ∧ classify node chars false false = some f
    ∧ ∀ n < chars.length, replyIsComplete (chars.take n) = false)
  ∧ (∀ (cls ms prog ph flags rem fault echo out reason : Byte) (more : List Byte),
    let payload := cls :: ms :: prog :: ph :: flags :: rem :: fault :: echo :: out :: reason :: more
    (parseFields 0x11#8 payload = none ↔
      (cls ≠ 1#8 ∧ cls ≠ 2#8) ∨ 4 < ms.toNat ∨ 7 < ph.toNat ∨ 1 < out.toNat
      ∨ (out = 1#8 ∧ (reason.toNat = 0 ∨ 3 < reason.toNat)))
    ∧ ∀ f, parseFields 0x11#8 payload = some f → ∃ r, f = .state r
      ∧ r.last.cls.code = cls.toNat ∧ r.last.mstate.code = ms.toNat ∧ r.last.phase.code = ph.toNat
      ∧ r.last.doorLocked = flags.getLsbD 0 ∧ r.last.heaterOn = flags.getLsbD 1
      ∧ r.last.heatRequest = flags.getLsbD 2
      ∧ r.last.remaining = (if rem.toNat = 255 then 254 else rem.toNat)
      ∧ r.last.fault = (if 15 < fault.toNat then 15 else fault.toNat)
      ∧ r.echo.toNat = echo.toNat % 16
      ∧ (out = 0#8 → r.outcome = .taken)
      ∧ (out = 1#8 → r.outcome
          = .refused (if reason = 1#8 then .doorOpen else if reason = 2#8 then .notReady else .badProgram)))
  ∧ (∀ (echo : Byte) (more : List Byte),
    ∃ e : ItemTag, parseFields 0x12#8 (echo :: more) = some (.nil e) ∧ e.toNat = echo.toNat % 16)
  ∧ (∀ (echo tag pos prog opts mins : Byte) (id : CardId) (more : List Byte),
    ∃ (e : ItemTag) (r : CardRequest),
      parseFields 0x13#8 (echo :: tag :: idBytes id ++ [pos, prog, opts, mins] ++ more) = some (.card e r)
      ∧ e.toNat = echo.toNat % 16 ∧ r.reqTag = tag ∧ r.cardId = id ∧ r.position = pos
      ∧ r.program = prog ∧ r.options.toNat = opts.toNat % 16 ∧ r.minutes = mins)
  ∧ (∀ (t : BusTime) (rest : List BusTime),
    (t.getLsbD 0 = true → busChars (t :: rest) = busChars rest)
    ∧ ((∀ i < 11, t.getLsbD i = false) → busChars (t :: rest) = ([], true))
    ∧ (t.getLsbD 0 = false → ∀ i < 11, t.getLsbD i = true →
      ∃ c : BusChar, busChars (t :: rest) = (c :: (busChars rest).1, (busChars rest).2)
        ∧ (∀ i < 8, c.data.getLsbD i = t.getLsbD (i + 1)) ∧ c.mark = t.getLsbD 9 ∧ c.framing = !t.getLsbD 10))
  ∧ ∀ (node : Node) (chars : List BusChar) (gap broken : Bool),
    let size : Option Nat := replySize chars
    let counted (i : Nat) (c : BusChar) : Prop := chars[i]? = some c ∧ ∀ n, size = some n → i < n
    let kind (k : Byte) : Prop := ∃ c, chars[1]? = some c ∧ c.data = k
    let bytes (first last : Nat) : List Byte := ((chars.take last).drop first).map (·.data)
    let crcWrong : Prop := ∃ n, size = some n ∧ n ≤ chars.length
      ∧ word16 (crc16 (bytes 1 (n - 2))) ≠ bytes (n - 2) n
    let error : Prop :=
      (∃ i c, counted i c ∧ c.framing = true)
      ∨ (∃ c, chars[0]? = some c ∧ (c.mark = false ∨ c.data.toNat ≠ node.address + 128))
      ∨ (∃ i c, 0 < i ∧ counted i c ∧ c.mark = true)
      ∨ (∃ k c, kind k ∧ chars[2]? = some c ∧ (24 < c.data.toNat ∨ (k = 0x11#8 ∧ c.data.toNat < 10)
          ∨ (k = 0x12#8 ∧ c.data.toNat < 1) ∨ (k = 0x13#8 ∧ c.data.toNat < 14)))
      ∨ crcWrong
      ∨ (∃ k, kind k ∧ ((∃ p, node = .machine p ∧ k ≠ 0x11#8)
          ∨ ∃ t, node = .terminal t ∧ k ≠ 0x12#8 ∧ k ≠ 0x13#8))
      ∨ (∃ n k, size = some n ∧ n ≤ chars.length ∧ kind k ∧ parseFields k (bytes 3 (n - 2)) = none)
      ∨ gap = true ∨ broken = true
    (replySize chars = none ∨ ∃ c, chars[2]? = some c ∧ replySize chars = some (5 + c.data.toNat))
    ∧ (error → classify node chars gap broken = none)
    ∧ (replyIsComplete chars = true → ¬ error → ∃ n k f, size = some n ∧ kind k
      ∧ parseFields k (bytes 3 (n - 2)) = some f ∧ classify node chars gap broken = some f)

/-- A confirmed order leaves the head of its queue and its outcome goes to its owner (R18, R32). START: TAKEN moves
its STARTING session to RUNNING with the start report pending; REFUSED cancels it with MACHINE_NOT_READY; TAKEN for a
START whose session is gone is an unpaid run, recorded once and halted (R103, R104, R116). EXTEND: TAKEN adds its
minutes to P; REFUSED fails the extension (R113, R114). HEAT_ON: TAKEN changes nothing; REFUSED ends a GRANTED grant
(R128). HEAT_OFF arms the position either way (R130, R138). END, HALT, DISABLE and ENABLE only leave, and an owed
display order is then tried (R27, R32). A confirmed item leaves the outbox; the ANSWER to the pending request ends it
(R53, R56). Choices of the model in it: log entries 7, 18, 19 and 31. -/
def Obligations.ConfirmedOrderReachesOwner : Prop :=
  (∀ (s : State) (p : PosIx) (o : Order) (rest : List Order) (out : OrderOutcome),
    (s.vol p).orders = o :: rest → (s.vol p).owed = false →
    let left : State := { s with pos := s.pos.set p.val { s.vol p with orders := rest } }
    (∀ program options minutes ses, o.body = .start program options minutes → o.owned = true →
      s.session p = some ses → ses.state = .starting →
      (out = .taken → ∃ t, confirmOrder p out s = t
        ∧ t.session p = some
            { ses with
              startLimit := none, state := .running, secs := 0, heatSecs := 0, startReport := true }
        ∧ (∀ q, q ≠ p → t.session q = s.session q)
        ∧ t.ret.cards = s.ret.cards ∧ t.ret.settlements = s.ret.settlements ∧ RoomStep s t
        ∧ t.vol p = { s.vol p with orders := rest, changed := true }
        ∧ (s.admitsAnswer ses.term ses.reqTag = true → (s.terminal ses.term).outbox.length < 4 →
          { body := .answer
              { reqTag := ses.reqTag, decline := none, amount := ses.hold
                minutes := if ses.mclass = .washer then ses.n else ses.purchased
                options := ses.options, available := s.available ses.cardId } false
            tag := none } ∈ (t.terminal ses.term).outbox))
      ∧ (∀ reason, out = .refused reason → ∃ t, confirmOrder p out s = t
        ∧ SessionCancelled s t p ses ∧ RoomStep s t
        ∧ Declined s t ses.term ses.reqTag .machineNotReady ses.cardId))
    ∧ (∀ program options minutes, o.body = .start program options minutes → o.owned = false →
      (out = .taken → (s.vol p).unpaid = false → ∃ t, confirmOrder p out s = t
        ∧ (t.vol p).unpaid = true ∧ RoomStepAndFault s t
        ∧ (t.ret.faults.getLast?).map (fun r => (r.code, r.position, r.severity, r.settlement, r.detail))
            = some (19, some p, .notice, none, none)
        ∧ (QueueLaw (s.vol p).orders → (t.vol p).haltStands = true))
      ∧ (out = .taken → (s.vol p).unpaid = true →
        ((∃ x ∈ rest, x.body = .halt) → confirmOrder p out s = left)
        ∧ ((∀ x ∈ rest, x.body ≠ .halt) → ∃ t, confirmOrder p out s = t
          ∧ (t.vol p).unpaid = true ∧ RoomStep s t
          ∧ (QueueLaw (s.vol p).orders → (t.vol p).haltStands = true)))
      ∧ (out ≠ .taken → confirmOrder p out s = left))
    ∧ (∀ minutes, o.body = .extend minutes →
      (o.owned = false → confirmOrder p out s = left)
      ∧ ∀ ses e, o.owned = true → s.session p = some ses → ses.ext = some e →
        (out = .taken → ∃ t, confirmOrder p out s = t
          ∧ t = { left with
              trail := t.trail
              term := t.term
              ret := { s.ret with sessions := s.ret.sessions.set p.val (some
                { ses with purchased := ses.purchased + e.minutes, ext := none, holding := false }) } }
          ∧ (s.admitsAnswer e.term e.reqTag = true → (s.terminal e.term).outbox.length < 4 →
            { body := .answer
                { reqTag := e.reqTag, decline := none, amount := e.hold, minutes := e.minutes
                  options := ses.options, available := s.available ses.cardId } false
              tag := none } ∈ (t.terminal e.term).outbox))
        ∧ (out ≠ .taken →
          let old : Session := { ses with ext := none, hold := ses.hold - e.hold }
          ∃ t, confirmOrder p out s = t
            ∧ t.session p = some (if ses.holding = true then
                { old with
                  state := .ending, holding := false, pauseLimit := none
                  doneLimit := some (s.ret.config.doneLimit * 60) } else old)
            ∧ (∀ q, q ≠ p → t.session q = s.session q)
            ∧ CardTook s t ses.cardId (fun c => { c with held := c.held - e.hold })
            ∧ t.ret.settlements = s.ret.settlements ∧ RoomStep s t
            ∧ Declined s t e.term e.reqTag .machineNotReady ses.cardId))
    ∧ (o.body = .heatOn →
      (out = .taken → confirmOrder p out s = left)
      ∧ (out ≠ .taken → (s.vol p).grant ≠ .granted → confirmOrder p out s = left)
      ∧ (out ≠ .taken → (s.vol p).grant = .granted → confirmOrder p out s = committedFell { s with
          pos := s.pos.set p.val
            { s.vol p with orders := rest, grant := .none, slice := none, changed := true }
          heat := { s.heat with queue := s.heat.queue.erase p, order := s.heat.order.erase p } }))
    ∧ (o.body = .heatOff →
      confirmOrder p out s
        = { s with pos := s.pos.set p.val { s.vol p with orders := rest, armed := true } })
    ∧ ((o.body = .finish ∨ o.body = .halt ∨ o.body = .disable ∨ o.body = .enable) →
      confirmOrder p out s = left))
  ∧ (∀ (s : State) (p : PosIx) (o : Order) (rest : List Order) (out : OrderOutcome),
    (s.vol p).orders = o :: rest → (s.vol p).owed = true →
    (o.body = .finish ∨ o.body = .halt ∨ o.body = .disable ∨ o.body = .enable) →
    let r := s.record p
    let q := queueDisplay (if r.oos || r.fault.isSome then .disable else .enable) rest
    confirmOrder p out s = { s with pos := s.pos.set p.val { s.vol p with orders := q.1, owed := q.2 } })
  ∧ ∀ (s : State) (t : TermIx),
    let v := s.terminal t
    let answers (i : Item) : Prop := ∃ a, i.body = .answer a false ∧ v.request = some a.reqTag
    (v.outbox = [] → confirmItem t s = s)
    ∧ ∀ i rest, v.outbox = i :: rest →
      (answers i → confirmItem t s = { s with
        term := s.term.set t.val { v with outbox := rest, request := none, lastTag := v.request } })
      ∧ (¬ answers i → confirmItem t s = { s with term := s.term.set t.val { v with outbox := rest } })


/-! ## The time base, the meter and the limits of sessions -/

/-- One tick of the time base: the clock advances, every running limit, slice and settle time has one second less, the
meter of each RUNNING session that is not holding counts a second, and a clock that enters another day while valid
clears every card's spent today. Here no minute is due before the tick (R78, R80, R98, R107, R133, R135). Choices of
the model in it: log entries 5, 6, 7 and 28. -/
def Obligations.TimeBaseTickAdvances : Prop :=
  ∀ s : State, s.live = true → (∀ p ses, s.session p = some ses → ses.minuteDue = false) →
    let minute := if s.clock.second < 59 then s.clock.minute
      else if s.clock.minute + 1 < 10080 then s.clock.minute + 1 else 0
    let crosses : Bool := s.clock.valid && decide (minute / 1440 ≠ s.clock.minute / 1440)
    ∃ t, exec .timeBaseTick s = .next t
      ∧ t = { s with
          trail := t.trail
          clock :=
            { minute := minute, second := if s.clock.second < 59 then s.clock.second + 1 else 0,
              valid := s.clock.valid }
          ret := { s.ret with
            sessions := t.ret.sessions
            cards := if crosses then s.ret.cards.map fun c => { c with spent := 0 } else s.ret.cards
            journal := if crosses then none else s.ret.journal }
          pos := t.pos
          heat := { s.heat with
            sag := match s.heat.sag with
              | .settling n => .settling (n - 1)
              | .normal => .normal
              | .asserted => .asserted } }
      ∧ (∀ p, t.vol p = { s.vol p with slice := (s.vol p).slice.map (· - 1) })
      ∧ (∀ p, s.session p = none → t.session p = none)
      ∧ ∀ p ses, s.session p = some ses →
        let ran : Session := { ses with
          startLimit := ses.startLimit.map (· - 1)
          pauseLimit := ses.pauseLimit.map (· - 1)
          doneLimit := ses.doneLimit.map (· - 1)
          ext := ses.ext.map fun e => { e with limit := e.limit.map (· - 1) } }
        ((ses.state ≠ .running ∨ ses.holding = true) → t.session p = some ran)
        ∧ (ses.state = .running → ses.holding = false →
          let heats : Bool := decide (ses.mclass = .dryer ∧ (s.vol p).grant = .granted)
          t.session p = some { ran with
            heatSecs := if heats then ses.heatSecs + 1 else ses.heatSecs
            secs := if ses.secs = 59 then 0 else ses.secs + 1
            minuteDue := decide (ses.secs = 59) })

/-- A completed minute raises elapsed minutes, which stop at 255 for a washer; a dryer's minute with 30 heat seconds
or more is heated, any other is cool. A dryer that reaches P holds its meter while an extension is open, and else goes
to ENDING, asks for END and begins its done limit; its grant is withdrawn: a QUEUED one becomes NONE, a GRANTED one
RELEASING with a HEAT_OFF in the queue, or NONE where it absorbs an undelivered HEAT_ON (R107, R110, R129). Choices of
the model in it: log entries 6, 7 and 23. -/
def Obligations.MeterMinuteCounted : Prop :=
  ∀ (s : State) (p : PosIx) (ses : Session), s.live = true → s.session p = some ses →
    (ses.minuteDue = false → exec (.meterMinute p) s = .next { s with trail := [] })
    ∧ (ses.minuteDue = true →
      let with1 (u : Session) : State :=
        { s with
          trail := [s.ret]
          ret := { s.ret with sessions := s.ret.sessions.set p.val (some u) } }
      (ses.mclass = .washer →
        exec (.meterMinute p) s
          = .next (with1 { ses with minuteDue := false, elapsed := min (ses.elapsed + 1) 255 }))
      ∧ (ses.mclass = .dryer →
        let counted : Session := { ses with
          minuteDue := false
          elapsed := ses.elapsed + 1
          heated := if 30 ≤ ses.heatSecs then ses.heated + 1 else ses.heated
          cool := if 30 ≤ ses.heatSecs then ses.cool else ses.cool + 1
          heatSecs := 0 }
        (ses.elapsed + 1 ≠ ses.purchased → exec (.meterMinute p) s = .next (with1 counted))
        ∧ (ses.elapsed + 1 = ses.purchased → ses.ext.isSome = true →
          exec (.meterMinute p) s = .next (with1 { counted with holding := true }))
        ∧ (ses.elapsed + 1 = ses.purchased → ses.ext = none →
          ((s.vol p).grant = .none ∨ (s.vol p).grant = .releasing) →
          ∃ t, exec (.meterMinute p) s = .next t
            ∧ t = { s with
                trail := t.trail
                ret := { s.ret with
                  sessions := s.ret.sessions.set p.val (some { counted with
                    state := .ending, holding := false, pauseLimit := none
                    doneLimit := some (s.ret.config.doneLimit * 60) }) }
                pos := s.pos.set p.val
                  { s.vol p with
                    orders := if (s.vol p).orders.length < 4
                      then (s.vol p).orders ++ [{ body := .finish, owned := true, tag := none }]
                      else (s.vol p).orders
                    changed := true } })
        ∧ (ses.elapsed + 1 = ses.purchased → ses.ext = none → HeatLaw s → QueueLaw (s.vol p).orders →
          ((s.vol p).grant = .granted ∨ (s.vol p).grant = .queued) →
          ∃ t, exec (.meterMinute p) s = .next t ∧ RoomStep s t
            ∧ t.ret.cards = s.ret.cards ∧ t.ret.settlements = s.ret.settlements
            ∧ t.session p = some { counted with
                state := .ending, holding := false, pauseLimit := none
                doneLimit := some (s.ret.config.doneLimit * 60) }
            ∧ (∀ q, q ≠ p → t.session q = s.session q)
            ∧ (t.vol p).changed = true ∧ p ∉ t.heat.queue ∧ p ∉ t.heat.order
            ∧ ((s.vol p).orders.length < 3 →
              { body := .finish, owned := true, tag := none } ∈ (t.vol p).orders)
            ∧ ((s.vol p).grant = .queued → (t.vol p).grant = .none)
            ∧ ((s.vol p).grant = .granted →
              let undelivered : Prop := ∃ o ∈ (s.vol p).orders, o.tag = none ∧ o.body = .heatOn
              (undelivered → (t.vol p).grant = .none)
              ∧ (¬ undelivered → (t.vol p).grant = .releasing ∧ (t.vol p).heatOffStands = true)))))

/-- A start limit that runs out cancels its STARTING session with MACHINE_NO_RESPONSE (R102, R105). An extension limit
that runs out lowers the hold by the added hold, declines MACHINE_NO_RESPONSE, and leaves the session on its old P, or
sends it to ENDING where its meter holds (R114). Choices of the model in it: log entries 4, 5, 7 and 18. -/
def Obligations.StartAndExtensionLimits : Prop :=
  ∀ (s : State) (p : PosIx) (ses : Session), s.live = true → s.session p = some ses →
    (ses.state = .starting → ses.startLimit = some 0 →
      ∃ t, exec (.startLimitExpiry p) s = .next t ∧ SessionCancelled s t p ses ∧ RoomStep s t
        ∧ Declined s t ses.term ses.reqTag .machineNoResponse ses.cardId
        ∧ ∀ o ∈ (t.vol p).orders, o.body.isStart = true → o.owned = false)
    ∧ (∀ e, ses.state ≠ .starting → ses.ext = some e → e.limit = some 0 →
      let left : Session := { ses with ext := none, hold := ses.hold - e.hold }
      ∃ t, exec (.extensionLimitExpiry p) s = .next t
        ∧ t.session p = some (if ses.holding = true then
            { left with
              state := .ending, holding := false, pauseLimit := none
              doneLimit := some (s.ret.config.doneLimit * 60) } else left)
        ∧ (∀ q, q ≠ p → t.session q = s.session q)
        ∧ CardTook s t ses.cardId (fun c => { c with held := c.held - e.hold })
        ∧ t.ret.settlements = s.ret.settlements ∧ RoomStep s t
        ∧ Declined s t e.term e.reqTag .machineNoResponse ses.cardId
        ∧ ∀ o ∈ (t.vol p).orders, o.body.isExtend = true → o.owned = false)
    ∧ ((ses.state ≠ .starting ∨ ses.startLimit ≠ some 0) →
      exec (.startLimitExpiry p) s = .next { s with trail := [] })
    ∧ ((∀ e, ses.ext = some e → e.limit ≠ some 0) →
      exec (.extensionLimitExpiry p) s = .next { s with trail := [] })

/-- A pause limit that runs out closes the session ABANDONED, charged as UNUSED, winds the machine down and asks for
END where the queue has room. A done limit that runs out closes it DONE_TIMEOUT, and that fault is recorded with the
settlement number of the close. An open extension is declined MACHINE_FAULT (R109, R110, R115, R118, R119). A washer
closed so is charged in the same way, which R118 leaves open (log entry 21). The session table's part of a VALID
STATE: the report that confirms a START is passed over (R104); PAUSED and RUNNING pause and resume a session, and a
pause withdraws the grant (R108, R109); DONE closes COMPLETED, READY and DOOR_OPEN close CYCLE_LOST with its fault
(R108, R111); RUNNING with no session is an unpaid run unless the wind-down mark stands (R116). Choices of the model
in it: log entries 4, 5, 7, 20 and 23. -/
def Obligations.PauseAndDoneLimits : Prop :=
  (∀ (s : State) (p : PosIx) (ses : Session), s.live = true → s.session p = some ses →
    HeatLaw s → QueueLaw (s.vol p).orders → NumberFree s →
    let answered (t : State) : Prop :=
      ∀ x, ses.ext = some x → Declined s t x.term x.reqTag .machineFault ses.cardId
    (ses.state = .paused → ses.pauseLimit = some 0 →
      ∃ t, exec (.pauseLimitExpiry p) s = .next t
        ∧ SessionClosed s t p ses ses.unusedCharge .abandoned none ∧ answered t
        ∧ RoomStep s t ∧ (t.vol p).windDown = true
        ∧ ((s.vol p).orders.length < 3 → (s.vol p).owed = false →
          (t.vol p).orders.getLast? = some { body := .finish, owned := true, tag := none }))
    ∧ (ses.state = .ending → ses.doneLimit = some 0 →
      ∃ t, exec (.doneLimitExpiry p) s = .next t
        ∧ SessionClosed s t p ses ses.unusedCharge .doneTimeout none ∧ answered t ∧ RoomStepAndFault s t
        ∧ t.ret.faults.getLast? = some
            { number := s.ret.nextFault, code := 21, position := some p, severity := .notice
              minute := s.minuteNow, settlement := some s.ret.nextSettlement, detail := none }
        ∧ (t.vol p).windDown = (s.vol p).windDown))
  ∧ ∀ (s : State) (p : PosIx) (ms : MachineState),
    let v : PosState := { s.vol p with
      unpaid := (s.vol p).unpaid && ms == .running
      windDown := (s.vol p).windDown && (ms == .running || ms == .paused) }
    let u : State := { s with pos := s.pos.set p.val v }
    let with1 (x : Session) : State :=
      { u with trail := s.ret :: s.trail, ret := { s.ret with sessions := s.ret.sessions.set p.val (some x) } }
    let t := sessionTakesState p ms s
    (s.session p = none →
      ((ms ≠ .running ∨ v.windDown = true) → t = u)
      ∧ (ms = .running → v.windDown = false → v.unpaid = true → v.haltStands = true → t = u)
      ∧ (ms = .running → v.windDown = false → QueueLaw v.orders →
        (t.vol p).unpaid = true ∧ (t.vol p).haltStands = true
        ∧ (v.unpaid = true → RoomStep s t)
        ∧ (v.unpaid = false → RoomStepAndFault s t ∧ t.ret.faults.getLast? = some
            { number := s.ret.nextFault, code := 19, position := some p, severity := .notice
              minute := s.minuteNow, settlement := none, detail := none })))
    ∧ ∀ ses, s.session p = some ses →
      (ses.startReport = true → t = with1 { ses with startReport := false })
      ∧ (ses.startReport = false → ses.state = .starting → t = u)
      ∧ (ses.startReport = false → ses.state = .running → ms = .running → t = u)
      ∧ (ses.startReport = false → ses.state = .paused → ms = .paused → t = u)
      ∧ (ses.startReport = false → ses.state = .ending → (ms = .running ∨ ms = .paused) → t = u)
      ∧ (ses.startReport = false → ses.state = .paused → ms = .running → t = { u with
          trail := s.ret :: s.trail
          ret := { s.ret with
            sessions := s.ret.sessions.set p.val (some { ses with state := .running, pauseLimit := none }) }
          pos := s.pos.set p.val { v with changed := true } })
      ∧ (ses.startReport = false → ses.state = .running → ms = .paused → HeatLaw s → QueueLaw v.orders →
        let paused : Session := { ses with
          state := .paused
          pauseLimit := if ses.mclass = .dryer then some (s.ret.config.pauseLimit * 60) else none }
        RoomStep s t ∧ (t.vol p).changed = true ∧ (∀ q, q ≠ p → t.session q = s.session q)
        ∧ ((v.orders.length < 4 ∨ v.grant ≠ .granted ∨ ses.ext = none) → t.session p = some paused)
        ∧ (v.grant = .none ∨ v.grant = .releasing → t = { with1 paused with
            pos := s.pos.set p.val { v with changed := true } })
        ∧ (v.grant = .queued → (t.vol p).grant = .none ∧ p ∉ t.heat.queue)
        ∧ (v.grant = .granted →
          let undelivered : Prop := ∃ o ∈ v.orders, o.tag = none ∧ o.body = .heatOn
          (undelivered → (t.vol p).grant = .none)
          ∧ (¬ undelivered → (t.vol p).grant = .releasing ∧ (t.vol p).heatOffStands = true)))
      ∧ (ses.startReport = false → ses.state ≠ .starting → HeatLaw s → QueueLaw v.orders → NumberFree s →
        let declined : Prop :=
          ∀ x, ses.ext = some x → Declined s t x.term x.reqTag .machineFault ses.cardId
        (ms = .done →
          SessionClosed s t p ses (if ses.mclass = .washer then ses.net else ses.unusedCharge) .completed none
          ∧ RoomStep s t ∧ declined ∧ (t.vol p).windDown = false)
        ∧ ((ms = .ready ∨ ms = .doorOpen) →
          SessionClosed s t p ses ses.unusedCharge .cycleLost none
          ∧ RoomStepAndFault s t ∧ declined ∧ (t.vol p).windDown = false
          ∧ t.ret.faults.getLast? = some
            { number := s.ret.nextFault, code := 20, position := some p, severity := .notice
              minute := s.minuteNow, settlement := some s.ret.nextSettlement, detail := none }))

/-! ## The heat budget unit -/

/-- Granting is strictly first in, first out: the heads that fit the active budget in turn leave the queue and join
the grant order; each gets HEAT_ON, and a dryer its slice, and the first head that does not fit stays. While SAG is
not NORMAL or a budget is pending none is granted. Nothing else changes (R120, R127). A head whose HEAT_ON is refused
at a full queue of 4 orders gets grant NONE, and the evaluation goes on with the next head (R36, R128). A heat request
in a VALID STATE, taken after its violation test, is honoured for a RUNNING session with a heater and grant NONE: the
position joins the tail of the queue and granting is evaluated. A request that may not be honoured is only stored, and
a clear one withdraws the grant (R126, R129, R132). Choice of the model in it: log entry 37. -/
def Obligations.GrantingFirstInFirstOut : Prop :=
  (∀ s : State, HeatLaw s → (∀ p ∈ s.heat.queue, (s.vol p).orders.length < 4) →
    let t := evaluate s
    let open1 : Bool := decide (s.heat.sag = .normal) && s.ret.pendingBudget.isNone
    ∃ given, s.heat.queue = given ++ t.heat.queue ∧ t.heat.order = s.heat.order ++ given
      ∧ t = { s with pos := t.pos, heat := { s.heat with queue := t.heat.queue, order := t.heat.order } }
      ∧ t.committed = s.committed + (given.map s.heaterDemand).sum
      ∧ t.committed ≤ s.ret.budget
      ∧ (open1 = false → given = [])
      ∧ (open1 = true → ∀ p rest, t.heat.queue = p :: rest → s.ret.budget < t.committed + s.heaterDemand p)
      ∧ (∀ p ∈ given, t.vol p = { s.vol p with
          grant := .granted
          slice := if s.isDryer p = true then some (s.ret.config.heatSlice * 60) else none
          orders := (s.vol p).orders ++ [{ body := .heatOn, owned := true, tag := none }]
          changed := true })
      ∧ ∀ p, p ∉ given → t.vol p = s.vol p)
  ∧ (∀ s : State, HeatLaw s →
    let granted (p : PosIx) (rest : List PosIx) (v : PosState) (order : List PosIx) : State :=
      { s with pos := s.pos.set p.val v, heat := { s.heat with queue := rest, order := order } }
    (s.heat.queue = [] → evaluate s = s)
    ∧ ∀ p rest, s.heat.queue = p :: rest →
      let v := s.vol p
      let fits : Prop := s.heat.sag = .normal ∧ s.ret.pendingBudget = none
        ∧ s.committed + s.heaterDemand p ≤ s.ret.budget
      (¬ fits → evaluate s = s)
      ∧ (fits → v.orders.length < 4 → evaluate s = evaluate (granted p rest
          { v with
            grant := .granted
            slice := if s.isDryer p = true then some (s.ret.config.heatSlice * 60) else none
            orders := v.orders ++ [{ body := .heatOn, owned := true, tag := none }]
            changed := true } (s.heat.order ++ [p])))
      ∧ (fits → 4 ≤ v.orders.length → evaluate s = evaluate (granted p rest
          { v with grant := .none, slice := none, changed := true } s.heat.order)))
  ∧ ∀ (s : State) (p : PosIx) (heaterOn request : Bool),
    let u := testViolation p heaterOn s
    let asked : PosState := { u.vol p with heatRequest := request }
    let t := heatTakesState p heaterOn request s
    (u.vol p).grant ≠ .releasing →
    (request = true → (u.vol p).grant = .none → u.sessionIs p .running = true → 0 < u.heaterDemand p →
      t = evaluate { u with
        pos := u.pos.set p.val { asked with grant := .queued, changed := true }
        heat := { u.heat with queue := u.heat.queue ++ [p] } })
    ∧ (request = true →
      ((u.vol p).grant ≠ .none ∨ u.sessionIs p .running = false ∨ u.heaterDemand p = 0) →
      t = { u with pos := u.pos.set p.val asked })
    ∧ (request = false → t = withdraw p { u with pos := u.pos.set p.val asked })

/-- A slice that expires with no position waiting begins again at its full length; with one waiting the grant is
withdrawn. It becomes RELEASING with a HEAT_OFF in the queue, or NONE at once where that HEAT_OFF absorbs an
undelivered HEAT_ON and the last heat request is clear. A slice that is not over, or stopped, does nothing (R38, R128,
R129, R133). What any withdrawal does (R129): nothing to a NONE or RELEASING grant; a QUEUED one leaves the queue; a
GRANTED one becomes RELEASING with a HEAT_OFF in the queue, or, where that absorbs an undelivered HEAT_ON, NONE at
once: the pending budget is tested, and the position joins the queue again while it still asks for heat (R124, R128).
Choices of the model in it: log entries 4, 5, 7 and 39. -/
def Obligations.SliceExpiryYields : Prop :=
  (∀ (s : State) (p : PosIx), s.live = true →
    ((s.vol p).grant = .granted → (s.vol p).slice = some 0 →
      let v := s.vol p
      (s.heat.queue = [] →
        exec (.sliceExpiry p) s = .next { s with
          trail := []
          pos := s.pos.set p.val { v with slice := some (s.ret.config.heatSlice * 60) } })
      ∧ (s.heat.queue ≠ [] → (∀ o ∈ v.orders, o.tag = none → o.body ≠ .heatOn) →
        ((v.orders.length < 4 ∨ ∃ o ∈ v.orders, o.tag = none ∧ o.body = .heatOff) →
          exec (.sliceExpiry p) s = .next { s with
            trail := []
            pos := s.pos.set p.val
              { v with
                grant := .releasing, slice := none, changed := true
                orders := withHeatOff v.orders }
            heat := { s.heat with order := s.heat.order.erase p } })
        ∧ (HeatLaw s → QueueLaw v.orders → ∃ t, exec (.sliceExpiry p) s = .next t
            ∧ (t.vol p).grant = .releasing ∧ (t.vol p).slice = none ∧ (t.vol p).heatOffStands = true ∧ RoomStep s t))
      ∧ (s.heat.queue ≠ [] → HeatLaw s → v.heatRequest = false →
        ∀ o ∈ v.orders, o.tag = none → o.body = .heatOn →
          ∃ t, exec (.sliceExpiry p) s = .next t
            ∧ (t.vol p).grant = .none ∧ (t.vol p).slice = none ∧ RoomStep s t))
    ∧ (((s.vol p).grant ≠ .granted ∨ (s.vol p).slice ≠ some 0) →
      exec (.sliceExpiry p) s = .next { s with trail := [] }))
  ∧ ∀ (s : State) (p : PosIx),
    let v := s.vol p
    let isOn (o : Order) : Prop := o.tag = none ∧ o.body = .heatOn
    let ended (orders : List Order) : State := { s with
      pos := s.pos.set p.val { v with grant := .none, slice := none, changed := true, orders := orders }
      heat := { s.heat with queue := s.heat.queue.erase p, order := s.heat.order.erase p } }
    ((v.grant = .none ∨ v.grant = .releasing) → withdraw p s = s)
    ∧ (v.grant = .queued → withdraw p s = evaluate (ended v.orders))
    ∧ (v.grant = .granted → (∀ o ∈ v.orders, ¬ isOn o) →
      ((v.orders.length < 4 ∨ ∃ o ∈ v.orders, o.tag = none ∧ o.body = .heatOff) →
        withdraw p s = { s with
          pos := s.pos.set p.val
            { v with
              grant := .releasing, slice := none, changed := true
              orders := withHeatOff v.orders }
          heat := { s.heat with order := s.heat.order.erase p } })
      ∧ (HeatLaw s → QueueLaw v.orders →
        ((withdraw p s).vol p).grant = .releasing ∧ ((withdraw p s).vol p).heatOffStands = true
        ∧ RoomStep s (withdraw p s)))
    ∧ (v.grant = .granted → HeatLaw s → v.owed = false → ∀ before on behind,
      v.orders = before ++ on :: behind → isOn on → (∀ o ∈ before, ¬ isOn o) →
      let w := activatePending (ended (before ++ behind))
      let again : Prop := v.heatRequest = true ∧ s.sessionIs p .running = true ∧ 0 < s.heaterDemand p
      (again → withdraw p s = evaluate { w with
        pos := w.pos.set p.val { w.vol p with grant := .queued }
        heat := { w.heat with queue := w.heat.queue ++ [p] } })
      ∧ (¬ again → withdraw p s = evaluate w))

/-- SAG asserted: the state becomes ASSERTED, every GRANTED grant is withdrawn, QUEUED and RELEASING grants keep
theirs, and MAINS_SAG is recorded as a room fault. Released, the settle time begins at its configured length; when it
ends the state is NORMAL and granting is evaluated. An input that does not change does nothing (R127, R134, R135).
Choices of the model in it: log entries 4, 7, 10 and 11. -/
def Obligations.SagWithdrawsEveryGrant : Prop :=
  (∀ s : State, s.live = true → s.pins.sag = false → HeatLaw s → (∀ p, QueueLaw (s.vol p).orders) →
    ∃ t, exec .sagAssert s = .next t
      ∧ t.pins = { s.pins with sag := true } ∧ t.heat.sag = .asserted ∧ t.heat.order = []
      ∧ RoomStepAndFault s
          { t with pins := s.pins, draws := s.draws, heat := { t.heat with sag := s.heat.sag } }
      ∧ s.heat.queue <+: t.heat.queue
      ∧ (∀ p, (s.vol p).grant ≠ .granted → t.vol p = s.vol p)
      ∧ (∀ p, (s.vol p).grant = .granted → (t.vol p).grant ≠ .granted ∧ (t.vol p).slice = none
          ∧ ((∀ o ∈ (s.vol p).orders, o.tag = none → o.body ≠ .heatOn) →
              (t.vol p).grant = .releasing ∧ (t.vol p).heatOffStands = true))
      ∧ t.ret.faults.getLast? = some
          { number := s.ret.nextFault, code := 23, position := none, severity := .notice
            minute := s.minuteNow, settlement := none, detail := none })
  ∧ (∀ s : State, s.live = true →
    (s.pins.sag = true → exec .sagAssert s = .next { s with trail := [] })
    ∧ (s.pins.sag = false → exec .sagRelease s = .next { s with trail := [] })
    ∧ (s.pins.sag = true →
      exec .sagRelease s = .next { s with
        trail := []
        pins := { s.pins with sag := false }
        heat := { s.heat with
          sag := if s.heat.sag = .asserted then .settling s.ret.config.settleTime else s.heat.sag } })
    ∧ (s.heat.sag = .settling 0 →
      exec .settleTimeEnd s
        = .next (evaluate { s with trail := [], heat := { s.heat with sag := .normal } }))
    ∧ (s.heat.sag ≠ .settling 0 → exec .settleTimeEnd s = .next { s with trail := [] }))

/-! ## Position faults -/

/-- The effects of a position fault by its classification. A NOTICE is recorded only, and so is a LOCKOUT over an
active fault. A LOCKOUT or SAFETY on a position with none becomes active and ends the session: a STARTING one is
declined MACHINE_FAULT, any other is closed FAULT under the code's policy and its settlement number is in the record.
SAFETY also takes a LOCKOUT's place, asks for HALT and HEAT_OFF and withdraws the grant. A field that a STATE repeats
raises nothing (R118, R119, R143, R147, R148, R149, R150, R151, R155). A class that differs from the one configured
raises CLASS_MISMATCH once, until a STATE carries the configured class (R30, R144). Field 0 with READY clears an
active machine fault that holds auto-clear (R152). The second tested STATE in turn with the heater on, no grant
GRANTED and no HEAT_OFF standing raises HEAT_WITHOUT_GRANT, once; a tested STATE that does not violate sets the count
to 0 (R138, R139). Choices of the model in it: log entries 7 and 23. -/
def Obligations.PositionFaultRaised : Prop :=
  (∀ (s : State) (p : PosIx) (code : Nat) (detail : Option MissKind),
    let c := s.classOf code
    let t := raiseFault p code detail s
    let active : ActiveFault := { code := code, severity := c.severity, autoClear := c.autoClear }
    let recorded (number : Option Nat) : Prop :=
      t.ret.faults.getLast? = some
        { number := s.ret.nextFault, code := code, position := some p, severity := c.severity
          minute := s.minuteNow, settlement := number, detail := detail }
    let onlySession (f : Option ActiveFault) : Prop :=
      (t.record p).fault = f ∧ ∀ q, q ≠ p → t.record q = s.record q ∧ t.session q = s.session q
    let unsold : Prop := (∀ id, t.card id = s.card id) ∧ t.ret.settlements = s.ret.settlements
    let stopped : Prop := (t.vol p).haltStands = true ∧ (t.vol p).heatOffStands = true
    (∀ ms, code ≠ 0 → faultTakesField p code ms s =
      if code = (s.vol p).prevFault then s
      else raiseFault p code none { s with pos := s.pos.set p.val { s.vol p with prevFault := code } })
    ∧ (c.severity = .notice → t = appendFault code (some p) .notice none none s)
    ∧ (∀ f, (s.record p).fault = some f → c.severity = .lockout →
      t = appendFault code (some p) .lockout none detail s)
    ∧ (HeatLaw s → QueueLaw (s.vol p).orders → NumberFree s →
      (c.severity ≠ .notice → (s.record p).fault = none →
        onlySession (some active) ∧ (t.vol p).changed = true
        ∧ (c.severity = .safety → stopped ∧ (t.vol p).grant ≠ .granted)
        ∧ (s.session p = none → unsold ∧ t.session p = none ∧ recorded none)
        ∧ ∀ ses, s.session p = some ses →
          (ses.state = .starting →
            t.session p = none ∧ t.ret.settlements = s.ret.settlements ∧ recorded none
            ∧ CardTook s t ses.cardId (fun c => { c with held := c.held - ses.hold })
            ∧ Declined s t ses.term ses.reqTag .machineFault ses.cardId)
          ∧ (ses.state ≠ .starting →
            let charge := match c.policy with
              | .full => 0
              | .unused => ses.unusedCharge
              | .none => ses.wholeCharge
            SessionClosed s t p ses charge .fault (some code)
            ∧ recorded (some s.ret.nextSettlement) ∧ (t.vol p).grant ≠ .granted
            ∧ (t.vol p).windDown = (decide (c.severity = .safety) || (s.vol p).windDown)))
      ∧ (∀ f, (s.record p).fault = some f → c.severity = .safety → s.session p = none →
        stopped ∧ unsold ∧ recorded none ∧ t.session p = none
        ∧ onlySession (some (if f.severity = .safety then f else active))
        ∧ (f.severity = .lockout → (t.vol p).grant ≠ .granted))))
  ∧ (∀ (s : State) (p : PosIx) (cls : MachineClass),
    let differs : Prop := ∃ c, (s.record p).config = some c ∧ c.cls ≠ cls
    let marked (m : Bool) : State := { s with pos := s.pos.set p.val { s.vol p with mismatch := m } }
    (differs → (s.vol p).mismatch = false → faultTakesClass p cls s = raiseFault p 18 none (marked true))
    ∧ (differs → (s.vol p).mismatch = true → faultTakesClass p cls s = s)
    ∧ (¬ differs → faultTakesClass p cls s = marked false))
  ∧ (∀ (s : State) (p : PosIx) (ms : MachineState),
    let v : PosState := { s.vol p with prevFault := 0 }
    let clears (f : ActiveFault) : Prop := f.code ≤ 15 ∧ f.autoClear = true ∧ ms = .ready
    let q := queueDisplay .enable v.orders
    ((∀ f, (s.record p).fault = some f → ¬ clears f) →
      faultTakesField p 0 ms s = { s with pos := s.pos.set p.val v })
    ∧ ∀ f, (s.record p).fault = some f → clears f →
      faultTakesField p 0 ms s = { s with
        trail := s.ret :: s.trail
        ret := { s.ret with positions := s.ret.positions.set p.val { s.record p with fault := none } }
        pos := s.pos.set p.val
          (if (s.record p).oos then { v with changed := true }
           else { v with orders := q.1, owed := q.2, changed := true }) })
  ∧ ∀ (s : State) (p : PosIx) (heaterOn : Bool),
    let v := s.vol p
    let stands : Prop := ∃ o ∈ v.orders, o.body = .heatOff
    let tested : Prop := v.armed = true ∧ 0 < s.heaterDemand p
    let violating : Prop := heaterOn = true ∧ v.grant ≠ .granted ∧ ¬ stands
    let counted (n : Nat) : State := { s with pos := s.pos.set p.val { v with violations := n } }
    let t := testViolation p heaterOn s
    (¬ tested → t = s)
    ∧ (tested → ¬ violating → t = counted 0)
    ∧ (tested → violating → v.violations = 0 → t = counted 1)
    ∧ (tested → violating → v.violations = 1 → t = raiseFault p 17 none (counted 2))
    ∧ (tested → violating → 2 ≤ v.violations → t = counted 2)

/-! ## Card requests -/

/-- A card request is judged by the twelve checks in order: the first that fails gives the reason of the DECLINE. At
check 6 the card of a RUNNING dryer with no open extension takes the top-up path instead. A new session freezes its
terms as they are read (R81, R86, R88, R89, R93, R95, R96, R99, R100). -/
def Obligations.AuthorizationChecksInOrder : Prop :=
  ∀ (s : State) (p : PosIx) (t : TermIx) (r : CardRequest),
    let firstFailing (checks : List (Bool × DeclineReason)) : Option DeclineReason :=
      (checks.find? fun x => !x.1).map (·.2)
    ((s.record p).config = none → authorize p t r s = .error .noSuchMachine)
    ∧ ∀ cfg, (s.record p).config = some cfg →
      (s.card r.cardId = none → authorize p t r s = .error .unknownCard)
      ∧ ∀ c, s.card r.cardId = some c →
        let early : List (Bool × DeclineReason) :=
          [(decide (c.state = .active), .cardBlocked),
           (!s.bandReading.closed || decide (c.cls ≠ .resident), .roomClosed),
           (decide ((s.vol p).bus.presence = .present ∧ (s.record p).fault = none
              ∧ ((s.record p).oos = false ∨ c.cls = .service)), .machineUnavailable)]
        let funds (cls : CardClass) (amount : Nat) : List (Bool × DeclineReason) :=
          [(decide (cls = .service ∨ amount ≤ c.balance - c.held), .insufficientFunds),
           (decide (cls = .service ∨ ∀ l, c.limit = some l → c.spent + amount ≤ l), .dailyLimit)]
        (∀ why, firstFailing early = some why → authorize p t r s = .error why)
        ∧ (firstFailing early = none →
          (∀ ses, s.session p = some ses →
            (¬ (ses.cardId = r.cardId ∧ ses.mclass = .dryer ∧ ses.state = .running ∧ ses.ext = none) →
              authorize p t r s = .error .machineBusy)
            ∧ (ses.cardId = r.cardId → ses.mclass = .dryer → ses.state = .running → ses.ext = none →
              ∀ l, cfg.limits = some l →
                let asked := if r.minutes.toNat = 0 then l.dflt else r.minutes.toNat
                let added := min asked (l.maximum - ses.purchased)
                let price (m : Nat) : Nat :=
                  if ses.cclass = .service then 0 else dryerPrice ses.m ses.d (m * ses.ph)
                let increment := price (ses.purchased + added) - price ses.purchased
                (added = 0 → authorize p t r s = .error .topupAtMaximum)
                ∧ (added ≠ 0 →
                  (∀ why, firstFailing (funds ses.cclass increment) = some why →
                    authorize p t r s = .error why)
                  ∧ (firstFailing (funds ses.cclass increment) = none →
                    authorize p t r s = .ok (.topup added increment)))))
          ∧ (s.session p = none →
            (findPrice cfg.cls r.program.toNat s.ret.prices = none → authorize p t r s = .error .noSuchProgram)
            ∧ ∀ e, findPrice cfg.cls r.program.toNat s.ret.prices = some e →
              let taken := optionsTaken e r.options
              let reading := s.bandReading
              let surcharge := if cfg.cls = .washer
                then (e.surcharges.map fun x => if r.options.getLsbD x.1.bit then x.2 else 0).sum else 0
              let purchased := if cfg.cls = .washer then 0
                else if r.minutes.toNat = 0 then cfg.purchase.dflt
                else if r.minutes.toNat < cfg.purchase.minimum then cfg.purchase.minimum
                else if cfg.purchase.maximum < r.minutes.toNat then cfg.purchase.maximum
                else r.minutes.toNat
              let hold := if c.cls = .service then 0
                else if cfg.cls = .washer then
                  let gross := (e.base * reading.m + 50) / 100 + surcharge
                  gross - gross * c.discount / 100
                else
                  let gross := (purchased * e.ph * reading.m + 50) / 100
                  gross - gross * c.discount / 100
              let ses : Session :=
                { mclass := cfg.cls, cclass := c.cls, program := r.program.toNat, options := taken,
                  cardId := r.cardId, term := t, reqTag := r.reqTag, base := e.base, ph := e.ph, pc := e.pc,
                  surcharge := surcharge, n := e.n, m := reading.m, d := c.discount,
                  startMinute := reading.minute, state := .starting, hold := hold, purchased := purchased,
                  ext := none, elapsed := 0, heated := 0, cool := 0, secs := 0, heatSecs := 0,
                  startLimit := none, pauseLimit := none, doneLimit := none, holding := false,
                  startReport := false, minuteDue := false }
              let late : List (Bool × DeclineReason) :=
                [(decide (∃ x, (s.vol p).lastState = some x ∧ (x.mstate = .ready ∨ x.mstate = .doorOpen)),
                    .machineNotReady),
                 (decide (s.openSessions + s.ret.settlements.length < 64), .settlementFull),
                 (s.ret.pendingBudget.isNone && decide (s.committed + cfg.motor ≤ s.ret.budget),
                    .roomAtCapacity)]
                ++ funds c.cls hold
              (∀ i < 4, taken.getLsbD i
                = (r.options.getLsbD i && e.surcharges.any fun x => x.1.bit == i))
              ∧ (∀ why, firstFailing late = some why → authorize p t r s = .error why)
              ∧ (firstFailing late = none → authorize p t r s = .ok (.create ses))))

/-- A request that is declined changes nothing but the DECLINE it queues. One that passes places its hold through the
journal and asks for START, the session standing in STARTING with its start limit running; a top-up likewise adds its
hold and asks for EXTEND (R67, R99, R101, R112). A START refused at a full queue of 4 orders cancels the session at
once, and a refused EXTEND fails the extension; both are declined MACHINE_NOT_READY, with no card and no settlement
record changed (R36, R103, R114). A declined request leaves the asking terminal's request, last tag, bus state and
every other terminal as they were. A CARD at a terminal: a repeat is ignored (R49); with a request pending a new one
is answered TERMINAL_BUSY, once (R50); else it becomes the pending request, and the terminal checks decline it or hand
it on (R51). Choices of the model in it: log entries 7 and 23. -/
def Obligations.RequestOpensSession : Prop :=
  (∀ (s : State) (p : PosIx) (t : TermIx) (r : CardRequest),
    let asks (body : OrderBody) : List Order :=
      (s.vol p).orders ++ [{ body := body, owned := true, tag := none }]
    let holds (id : CardId) (amount : Nat) (u : State) : Prop :=
      CardTook s u id fun c => { c with held := c.held + amount }
    (∀ why, authorize p t r s = .error why →
      takeRequest p t r s = { s with term := (takeRequest p t r s).term }
      ∧ Declined s (takeRequest p t r s) t r.reqTag why r.cardId
      ∧ ∀ x, x ≠ t → (takeRequest p t r s).terminal x = s.terminal x)
    ∧ (∀ ses, authorize p t r s = .ok (.create ses) → (s.vol p).orders.length < 4 →
      ∃ u, takeRequest p t r s = u ∧ holds ses.cardId ses.hold u
        ∧ u = { s with
            trail := u.trail
            ret := { s.ret with
              cards := u.ret.cards
              journal := none
              sessions := s.ret.sessions.set p.val
                (some { ses with startLimit := some s.ret.config.startLimit }) }
            pos := s.pos.set p.val
              { s.vol p with
                windDown := false, changed := true
                orders := asks (.start ses.program ses.options ses.purchased) } })
    ∧ (∀ added increment ses, authorize p t r s = .ok (.topup added increment) → s.session p = some ses →
      (s.vol p).orders.length < 4 →
      ∃ u, takeRequest p t r s = u ∧ holds ses.cardId increment u
        ∧ u = { s with
            trail := u.trail
            ret := { s.ret with
              cards := u.ret.cards
              journal := none
              sessions := s.ret.sessions.set p.val
                (some { ses with
                  hold := ses.hold + increment
                  ext := some
                    { minutes := added, hold := increment, term := t, reqTag := r.reqTag,
                      limit := some s.ret.config.startLimit } }) }
            pos := s.pos.set p.val { s.vol p with orders := asks (.extend added) } })
    ∧ (∀ ses, authorize p t r s = .ok (.create ses) → 4 ≤ (s.vol p).orders.length →
      ∃ u, takeRequest p t r s = u ∧ RoomStep s u
        ∧ u.session p = none ∧ (∀ q, q ≠ p → u.session q = s.session q) ∧ (u.vol p).changed = true
        ∧ (∀ id, u.card id = s.card id) ∧ u.ret.settlements = s.ret.settlements
        ∧ u.ret.nextSettlement = s.ret.nextSettlement
        ∧ (∀ o ∈ (u.vol p).orders, o.body.isStart = true → o.owned = false)
        ∧ Declined s u t r.reqTag .machineNotReady r.cardId)
    ∧ (∀ added increment ses, authorize p t r s = .ok (.topup added increment) → s.session p = some ses →
      4 ≤ (s.vol p).orders.length →
      ∃ u, takeRequest p t r s = u ∧ RoomStep s u
        ∧ u.session p = some (if ses.holding = true then
            { ses with
              state := .ending, holding := false, pauseLimit := none
              doneLimit := some (s.ret.config.doneLimit * 60) } else ses)
        ∧ (∀ q, q ≠ p → u.session q = s.session q)
        ∧ (∀ id, u.card id = s.card id) ∧ u.ret.settlements = s.ret.settlements
        ∧ u.ret.nextSettlement = s.ret.nextSettlement
        ∧ (∀ o ∈ (u.vol p).orders, o.body.isExtend = true → o.owned = false)
        ∧ Declined s u t r.reqTag .machineNotReady ses.cardId))
  ∧ (∀ (s : State) (p : PosIx) (t : TermIx) (r : CardRequest) (why : DeclineReason),
    authorize p t r s = .error why →
    ∃ box, takeRequest p t r s = { s with term := s.term.set t.val { s.terminal t with outbox := box } })
  ∧ ∀ (s : State) (t : TermIx) (r : CardRequest),
    let v := s.terminal t
    let busy (i : Item) (tag : Byte) : Prop := ∃ a, i.body = .answer a true ∧ a.reqTag = tag
    let repeated : Prop := v.request = some r.reqTag ∨ (v.request = none ∧ v.lastTag = some r.reqTag)
      ∨ ∃ i ∈ v.outbox, busy i r.reqTag
    let decline (why : DeclineReason) (isBusy : Bool) : Item :=
      { body := .answer
          { reqTag := r.reqTag, decline := some why, amount := 0, minutes := 0, options := 0#4
            available := s.available r.cardId } isBusy
        tag := none }
    let pending : State := { s with term := s.term.set t.val { v with request := some r.reqTag } }
    let failed (why : DeclineReason) : Prop := takeCard t r s = { s with
      term := s.term.set t.val
        { v with request := some r.reqTag, outbox := placeAnswer (decline why false) v.outbox } }
    (repeated → takeCard t r s = s)
    ∧ (¬ repeated → v.request ≠ none →
      ((∃ i ∈ v.outbox, ∃ tag, busy i tag) → takeCard t r s = s)
      ∧ ((∀ i ∈ v.outbox, ∀ tag, ¬ busy i tag) → takeCard t r s = { s with
          term := s.term.set t.val
            { v with outbox := placeAnswer (decline .terminalBusy true) v.outbox } }))
    ∧ (¬ repeated → v.request = none →
      (posOf r.position = none → failed .noSuchMachine)
      ∧ ∀ p, posOf r.position = some p →
        (r.cardId = 0#64 → failed .unknownCard)
        ∧ (r.cardId ≠ 0#64 → (r.program.toNat = 0 ∨ 15 < r.program.toNat) → failed .noSuchProgram)
        ∧ (r.cardId ≠ 0#64 → 1 ≤ r.program.toNat → r.program.toNat ≤ 15 →
          takeCard t r s = takeRequest p t r pending))


/-! ## Supply, reset and start-up -/

/-- A fall of VDD or a RESET_N assertion stops the part at once: the store keeps the retained writes of the last event
that were begun, and a visit ends. A fall of VDD loses retention valid unless VBAK holds; VBAK falling later loses it,
and while VDD is present does not. While the part is off, in reset or waiting for the release, every other row leaves
the state as it is, and SAG only moves its pin (R183, R184, R187; the cut and the VBAK operand are log entries 7 and
8). Choices of the model in it: log entries 4, 11 and 27. -/
def Obligations.PowerLossAndResetStop : Prop :=
  (∀ (s : State) (cut : Nat) (held : Bool),
    let store : Retained := if cut = 0 then s.ret else (s.trail[cut - 1]?).getD s.ret
    let stopped : State := { s with ret := store, trail := [], bus := { s.bus with visit := none } }
    exec (.resetNAssert cut) s
      = .next { (if s.live then stopped else s) with power := { s.power with resetHeld := true } }
    ∧ exec (.vddFall cut held) s = .next
        (if s.power.vdd then
          { stopped with
            ret := { store with valid := store.valid && held }
            power := { vdd := false, resetHeld := s.power.resetHeld, waiting := false } }
         else s)
    ∧ exec .vbakFall s = .next
        (if s.power.vdd then s else { s with ret := { s.ret with valid := false } }))
  ∧ (∀ (c : Instr) (s : State), s.live = false →
    (∀ a b, c ≠ .powerUp a b) → (∀ cut, c ≠ .resetNAssert cut) → (∀ a b, c ≠ .resetPin a b) →
    (∀ cut held, c ≠ .vddFall cut held) → c ≠ .vbakFall → c ≠ .sagAssert → c ≠ .sagRelease →
    exec c s = .next s)
  ∧ ∀ s : State,
    (s.live = false →
      exec .sagAssert s = .next { s with pins := { s.pins with sag := true } }
      ∧ exec .sagRelease s = .next { s with pins := { s.pins with sag := false } })
    ∧ (s.power.vdd = true → ∀ a b, exec (.powerUp a b) s = .next s)
    ∧ (s.power.resetHeld = false → ∀ a b, exec (.resetPin a b) s = .next s)

/-- A power-up or a release of RESET_N that finds retention invalid is a cold start: the store takes its initial
contents, retention valid is set, and every block its start values; SAG and the straps are sampled. A power-up with
RESET_N asserted waits for the release (R22, R78, R125, R155, R167, R176, R181, R187, R188, R189). Choices of the
model in it: log entries 7 and 9. -/
def Obligations.ColdStartInitialises : Prop :=
  ∀ (s : State) (strap1 strap0 : Bool),
    let initial : Retained :=
      { positions := Vector.replicate 24 { config := none, oos := false, fault := none }
        terminals := Vector.replicate 4 false
        cards := [], prices := [], bands := []
        classes := Vector.replicate 15 { severity := .lockout, policy := .full, autoClear := false }
        config :=
          { busRate := .r19200, jamLimit := 500, lostLimit := 4, startLimit := 15, pauseLimit := 15,
            doneLimit := 10, heatSlice := 6, settleTime := 10, attnMask := 127#7 }
        budget := 0, pendingBudget := none
        sessions := Vector.replicate 24 none
        settlements := [], nextSettlement := 1
        faults :=
          { number := 1, code := 24, position := none, severity := .notice, minute := none,
            settlement := none, detail := none }
          :: (if s.pins.sag then
            [{ number := 2, code := 23, position := none, severity := .notice, minute := none,
               settlement := none, detail := none }] else [])
        nextFault := if s.pins.sag then 3 else 2
        overflow := false, journal := none, valid := true }
    let rate : GatewayRate := match strap1, strap0 with
      | false, false => .r19200
      | false, true => .r38400
      | true, false => .r57600
      | true, true => .r115200
    let started (t : State) : Prop := t = { s with
      ret := initial
      trail := t.trail
      power := { vdd := true, resetHeld := false, waiting := false }
      pins := { sag := s.pins.sag, strap1 := strap1, strap0 := strap0 }
      clock := { minute := 0, second := 0, valid := false }
      pos := Vector.replicate 24 PosState.new
      term := Vector.replicate 4 TermState.new
      bus := BusState.new
      heat := { queue := [], order := [], sag := if s.pins.sag then .asserted else .normal }
      link :=
        { receiver := .ignoring, buffer := [], transmit := [], sending := false, flow := none,
          holding := false, held := false, restarting := false, rate := rate, cause := .coldStart,
          restarted := true } }
    (s.power.vdd = false → s.power.resetHeld = false → s.ret.valid = false →
      ∃ t, exec (.powerUp strap1 strap0) s = .next t ∧ started t)
    ∧ (s.power.vdd = true → s.power.resetHeld = true → s.ret.valid = false →
      ∃ t, exec (.resetPin strap1 strap0) s = .next t ∧ started t)
    ∧ (s.power.vdd = false → s.power.resetHeld = true →
      exec (.powerUp strap1 strap0) s = .next { s with
        trail := []
        power := { vdd := true, resetHeld := true, waiting := true }
        pins := { s.pins with strap1 := strap1, strap0 := strap0 } })

/-- A start that finds retention valid settles every session: a STARTING one without a record, any other charged by
its meter, with end reason POWER_LOSS or RESTARTED by the kind of the start. No hold is left, a pending budget is
taken, every configured position gets a HEAT_OFF and its changed flag, and the tables and faults are kept. The RESTART
reply's last stop bit is such a start, by RESTART_REQUEST or, with the straps as they last stood, by REPLY_FRAME_SENT
(R177, R187, R189, R190, R191). A start that finds SAG asserted records MAINS_SAG with no minute (R135, R155, R157).
Choice of the model in it: log entry 9. -/
def Obligations.WarmStartSettlesSessions : Prop :=
  ∀ (s : State) (strap1 strap0 : Bool), s.ret.valid = true →
    let warm (kind : StartKind) (t : State) : Prop :=
      let reason : EndReason := if kind = .warmStart then .powerLoss else .restarted
      let closing (p : PosIx) : Option Session := (s.session p).filter fun x => x.state != .starting
      t.power = { vdd := true, resetHeld := false, waiting := false }
      ∧ t.clock = { minute := 0, second := 0, valid := false }
      ∧ (∀ x, t.terminal x = TermState.new) ∧ t.bus = BusState.new
      ∧ t.heat = { queue := [], order := [], sag := if s.pins.sag then .asserted else .normal }
      ∧ t.link = LinkState.start (GatewayRate.ofStraps strap1 strap0) kind
      ∧ (∀ p, t.session p = none)
      ∧ (∀ p, t.vol p = { PosState.new with
          changed := s.configured p
          orders := if s.configured p then [{ body := .heatOff, owned := true, tag := none }] else [] })
      ∧ t.ret.positions = s.ret.positions ∧ t.ret.terminals = s.ret.terminals
      ∧ t.ret.prices = s.ret.prices ∧ t.ret.bands = s.ret.bands ∧ t.ret.classes = s.ret.classes
      ∧ t.ret.config = s.ret.config ∧ t.ret.valid = true ∧ t.ret.journal = none
      ∧ t.ret.pendingBudget = none ∧ t.ret.budget = s.ret.pendingBudget.getD s.ret.budget
      ∧ (∀ c ∈ t.ret.cards, c.held = 0)
      ∧ (s.pins.sag = false → t.ret.faults = s.ret.faults ∧ t.ret.nextFault = s.ret.nextFault
          ∧ t.ret.overflow = s.ret.overflow)
      ∧ (s.pins.sag = true →
        let mainsSag : FaultRecord :=
          { number := s.ret.nextFault, code := 23, position := none, severity := .notice, minute := none
            settlement := none, detail := none }
        t.ret.faults.getLast? = some mainsSag
        ∧ (s.ret.faults.length < 32 →
          t.ret.faults = s.ret.faults ++ [mainsSag] ∧ t.ret.overflow = s.ret.overflow)
        ∧ (32 ≤ s.ret.faults.length → t.ret.overflow = true ∧ t.ret.faults.length ≤ s.ret.faults.length)
        ∧ t.ret.nextFault = if 65535 ≤ s.ret.nextFault then 1 else s.ret.nextFault + 1)
      ∧ (s.ret.journal = none →
        (NumberFree s → ∃ more, t.ret.settlements = s.ret.settlements ++ more
          ∧ more.map (fun r => (r.position, r.cardId, r.hold, r.charged, r.reason))
            = allPositions.filterMap fun p => (closing p).map fun x =>
                (p, x.cardId, x.hold, x.unusedCharge, reason))
        ∧ (∀ id, (∀ p x, s.session p = some x → x.cardId ≠ id) →
          t.card id = (s.card id).map fun c => { c with held := 0 })
        ∧ ∀ p x, s.session p = some x → (∀ q y, q ≠ p → s.session q = some y → y.cardId ≠ x.cardId) →
          t.card x.cardId = (s.card x.cardId).map fun c =>
            if x.state = .starting then { c with held := 0 }
            else { c with
              held := 0, balance := c.balance - x.unusedCharge
              spent := min (c.spent + x.unusedCharge) 999999 })
    (s.power.vdd = false → s.power.resetHeld = false →
      ∃ t, exec (.powerUp strap1 strap0) s = .next t ∧ warm .warmStart t)
    ∧ (s.power.vdd = true → s.power.resetHeld = true →
      ∃ t, exec (.resetPin strap1 strap0) s = .next t
        ∧ warm (if s.power.waiting then .warmStart else .resetPin) t)
    ∧ (∀ f rest, s.live = true → s.link.sending = true → s.link.transmit = f :: rest →
      f.type = 0x7F#8 → f.status = .ok →
      (∃ t, exec (.restartRequest strap1 strap0) s = .next t ∧ warm .restartRequest t ∧ t.lastSent = f.wire.map sentByte)
      ∧ exec .replyFrameSent s = exec (.restartRequest s.pins.strap1 s.pins.strap0) s)
    ∧ (s.power.vdd = false → s.power.resetHeld = true →
      exec (.resetPin strap1 strap0) s = .next { s with power := { s.power with resetHeld := false } })

/-! ## Laws of the queues, of money and of the store -/

/-- A journalled change is cut whole or not at all: whichever of its five retained writes are begun, the roll-forward
of the next start gives the store as the whole change leaves it; before the first write, it leaves the old store (R66,
R183, R186; the trail is log entry 7). -/
def Obligations.JournalledChangeSurvivesCut : Prop :=
  ∀ (s : State) (e : JournalEntry),
    let t := journalled e s
    t.ret = { applyEntry e s.ret with journal := none }
    ∧ t = { s with ret := t.ret, trail := t.trail }
    ∧ (∃ writes, t.trail = writes ++ s.ret :: s.trail ∧ writes.length = 4)
    ∧ (∀ cut, 1 ≤ cut → cut ≤ 4 → (rollForward { t with ret := t.retainedCut cut }).ret = t.ret)
    ∧ t.retainedCut 0 = t.ret ∧ t.retainedCut 5 = s.ret

/-- Coalescing of an order queue. A removed START, EXTEND or HEAT_ON is reported to its owner at the removal, before
the position table goes on with the HALT or HEAT_OFF, and an owed display order is then tried; the next step is made
on the queue as the report left it (R27, R32, R35). HALT so strips every undelivered START, EXTEND, END and HEAT_ON,
and merges with an undelivered HALT or stands first behind the order in delivery (R37). HEAT_OFF takes away an
undelivered HEAT_ON and is absorbed, merges, or stands first behind the order in delivery and a HALT (R38). In a queue
of 4 the newest undelivered order that is neither HALT nor HEAT_OFF makes room first; a display order so removed is
owed, any other is reported (R40). A display order takes away the undelivered ones and stands last, or is owed where 4
orders are left (R39). The law of the queue is kept. That the attempt follows the report is the model's choice (log
entry 19). Choices of the model in it: log entries 32 and 35. -/
def Obligations.QueueCoalescing : Prop :=
  (∀ (q : List Order) (body : OrderBody), QueueLaw q → body.display = true →
    let new : Order := { body := body, owned := true, tag := none }
    let others := q.filter fun o => !(o.tag.isNone && o.body.display)
    let d := queueDisplay body q
    QueueLaw d.1 ∧ d = (if others.length < 4 then (others ++ [new], false) else (others, true)))
  ∧ ∀ (s : State) (p : PosIx),
    let queue (u : State) : List Order := (u.vol p).orders
    let holding (q : List Order) (u : State) : State :=
      { u with pos := u.pos.set p.val { u.vol p with orders := q } }
    let told (o : Order) (u : State) : State := serveOwed p (reportCancelled withdraw p o u)
    let has (body : OrderBody) (q : List Order) : Prop := ∃ o ∈ q, o.tag = none ∧ o.body = body
    let movable (o : Order) : Bool := o.tag.isNone && o.body != .halt && o.body != .heatOff
    -- `t` is `u` with the new order in its place in the queue `q`
    let stands (body : OrderBody) (q : List Order) (u t : State) : Prop :=
      ∃ halts rest, let sent := q.takeWhile fun o => o.tag.isSome
        q = sent ++ halts ++ rest
        ∧ t = holding (sent ++ halts ++ { body := body, owned := true, tag := none } :: rest) u
        ∧ (body = .halt → halts = [])
        ∧ (∀ o ∈ halts, o.body = .halt) ∧ (body = .heatOff → ∀ o after, rest = o :: after → o.body = .halt → halts ≠ [])
    -- the new order is placed where the queue has room or a display order makes room
    let placed (body : OrderBody) (u t : State) : Prop :=
      ((queue u).length < 4 → stands body (queue u) u t)
      ∧ ∀ before o after, queue u = before ++ o :: after → 4 ≤ (queue u).length → movable o = true →
        (∀ x ∈ after, movable x = false) → o.body.display = true →
        stands body (before ++ after)
          { u with pos := u.pos.set p.val { u.vol p with owed := true } } t
    let stripped (o : Order) : Bool := o.tag.isNone && o.body.strippable
    let strip (u : State) : State :=
      match (queue u).find? stripped with
      | none => u
      | some o => told o (holding ((queue u).eraseP stripped) u)
    let full (u : State) : Prop := 4 ≤ (queue u).length ∧ ¬ has .heatOn (queue u) ∧ ¬ has .heatOff (queue u)
    let yields (u w : State) : Prop := ∃ before o after, queue u = before ++ o :: after ∧ movable o = true
      ∧ (∀ x ∈ after, movable x = false) ∧ o.body.display = false ∧ w = told o (holding (before ++ after) u)
    (∀ n ≤ 8, let u := strip^[n] s
      (∀ o ∈ queue u, stripped o = false) → QueueLaw (queue u) →
      (has .halt (queue u) → askHalt p s = u) ∧ (¬ has .halt (queue u) → placed .halt u (askHalt p s)))
    ∧ (∀ us : List State, us.length ≤ 8 → us.head? = some s → us.IsChain (fun u w => full u ∧ yields u w) →
      ∀ u, us.getLast? = some u → QueueLaw (queue u) →
        (∀ before o after, queue u = before ++ o :: after → o.tag = none → o.body = .heatOn →
          (∀ x ∈ before, x.tag ≠ none ∨ x.body ≠ .heatOn) →
          askHeatOff p s = told o (holding (before ++ after) u))
        ∧ (¬ has .heatOn (queue u) → has .heatOff (queue u) → askHeatOff p s = u)
        ∧ (¬ has .heatOn (queue u) → ¬ has .heatOff (queue u) → placed .heatOff u (askHeatOff p s)))
    ∧ (QueueLaw (queue s) → QueueLaw (queue (askHalt p s)) ∧ QueueLaw (queue (askHeatOff p s))
      ∧ ∃ o ∈ queue (askHalt p s), o.body = .halt)
    ∧ (let v := s.vol p
      let r := s.record p
      let d := queueDisplay (if r.oos || r.fault.isSome then .disable else .enable) v.orders
      let asked : State := { s with pos := s.pos.set p.val { v with orders := d.1, owed := d.2 } }
      askDisplay p s = asked ∧ serveOwed p s = if v.owed then asked else s)
    ∧ ∀ o : Order,
      ((o.body = .finish ∨ o.body = .disable ∨ o.body = .enable ∨ o.owned = false) → o.body ≠ .heatOn →
        reportCancelled withdraw p o s = s)
      ∧ (o.body = .heatOn → reportCancelled withdraw p o s = heatOnCancelled p s)
      ∧ (o.owned = true → o.body.isStart = true →
        reportCancelled withdraw p o s = cancelIfStarting p .machineNotReady s)
      ∧ (o.owned = true → o.body.isExtend = true →
        reportCancelled withdraw p o s = extensionFail p .machineNotReady s)

/-- A record that is to be appended to a fault queue of 32 first removes the oldest NOTICE, or the oldest record where
no NOTICE is held; it is then appended, whatever its severity, and the overflow flag is set. The flag stays as it is
at any other append, and READ FAULTS returns it and clears it (R157; the record and its number are those of R155 and
R156). -/
def Obligations.FaultQueueOverflow : Prop :=
  (∀ (code : Nat) (pos : Option PosIx) (sev : Severity) (number : Option Nat) (detail : Option MissKind)
    (s : State),
    let added : FaultRecord :=
      { number := s.ret.nextFault, code := code, position := pos, severity := sev,
        minute := if s.clock.valid then some s.clock.minute else none, settlement := number,
        detail := detail }
    let t (left : List FaultRecord) (flag : Bool) : State :=
      { s with
        trail := s.ret :: s.trail
        ret := { s.ret with
          faults := left ++ [added]
          nextFault := if 65535 ≤ s.ret.nextFault then 1 else s.ret.nextFault + 1
          overflow := flag } }
    (s.ret.faults.length < 32 →
      appendFault code pos sev number detail s = t s.ret.faults s.ret.overflow)
    ∧ (32 ≤ s.ret.faults.length →
      (∀ before r after, s.ret.faults = before ++ r :: after → r.severity = .notice →
        (∀ x ∈ before, x.severity ≠ .notice) →
        appendFault code pos sev number detail s = t (before ++ after) true)
      ∧ ((∀ x ∈ s.ret.faults, x.severity ≠ .notice) →
        appendFault code pos sev number detail s = t (s.ret.faults.drop 1) true)))
  ∧ ∀ s : State,
    (process .readFaults s).payload.drop 1
        = flag1 s.ret.overflow :: (s.ret.faults.take 8).flatMap FaultRecord.bytes
    ∧ (process .readFaults s).state.ret.overflow = false

/-- The charge arithmetic: a dryer is charged C(h, c) = f(h × ph + c × pc) and holds H(P) = f(P × ph); the dryer
pricing function f is the one of R92 and does not fall as the gross amount rises, so a dryer's charge is at most its
hold; a washer's price is the one of R90, and its partial charge lies between 0, at no minute, and the price, from the
nominal minutes on (R90, R91, R92, R93, R94). The bounds of those rules hold for the values the tables admit, the
purchase minutes are brought into their range, and a session is charged by these functions from its frozen terms. A
SERVICE session is charged 0, and a close is charged by the table of R118 (what R96 and R118 ask of the
arithmetic). -/
def Obligations.ChargesWithinHold : Prop :=
  (∀ m d : Nat, d ≤ 90 →
    (∀ g, dryerPrice m d g = (g * m + 50) / 100 - (g * m + 50) / 100 * d / 100)
    ∧ (∀ ph p, dryerHold m d ph p = dryerPrice m d (p * ph))
    ∧ (∀ ph pc h c, dryerCharge m d ph pc h c = dryerPrice m d (h * ph + c * pc))
    ∧ (∀ g h, g ≤ h → dryerPrice m d g ≤ dryerPrice m d h)
    ∧ (∀ g, dryerPrice m d g ≤ (g * m + 50) / 100)
    ∧ (m ≤ 250 → ∀ g, g ≤ 60000 → dryerPrice m d g ≤ 150000)
    ∧ (∀ ph pc h c p, pc ≤ ph → h + c ≤ p → dryerCharge m d ph pc h c ≤ dryerHold m d ph p)
    ∧ (∀ ph pc p, dryerCharge m d ph pc p 0 = dryerHold m d ph p)
    ∧ (∀ ph pc, dryerCharge m d ph pc 0 0 = 0)
    ∧ (∀ base sur, washerPrice base sur m d
        = (base * m + 50) / 100 + sur - ((base * m + 50) / 100 + sur) * d / 100)
    ∧ (∀ base sur, base ≤ 5000 → m ≤ 250 → sur ≤ 4000 → washerPrice base sur m d ≤ 16500)
    ∧ ∀ net e n, 0 < n →
      washerPartial net e n = net * (if n < e then n else e) / n ∧ washerPartial net e n ≤ net
      ∧ washerPartial net 0 n = 0 ∧ (n ≤ e → washerPartial net e n = net))
  ∧ (∀ base sur m d : Nat, d ≤ 90 → base ≤ 5000 → m ≤ 250 → sur ≤ 4000 →
      (base * m + 50) / 100 ≤ 12500 ∧ (base * m + 50) / 100 + sur ≤ 16500
      ∧ washerPrice base sur m d ≤ (base * m + 50) / 100 + sur)
  ∧ (∀ (l : PurchaseLimits) (asked : Nat), l.minimum ≤ l.maximum →
      purchaseMinutes l asked
        = if asked = 0 then l.dflt else max l.minimum (min asked l.maximum))
  ∧ (∀ m d ph p : Nat, d ≤ 90 → m ≤ 250 → p ≤ 120 → ph ≤ 500 →
      p * ph ≤ 60000 ∧ dryerHold m d ph p ≤ 150000)
  ∧ (∀ m d ph pc h c : Nat, d ≤ 90 → pc ≤ ph → dryerCharge m d ph pc h (c + 1) ≤ dryerCharge m d ph pc (h + 1) c)
  ∧ (∀ (ses : Session) (reason : EndReason) (policy : Policy) (p : Nat), ses.cclass = .service →
      ses.net = 0 ∧ ses.holdFor p = 0 ∧ ses.unusedCharge = 0 ∧ ses.wholeCharge = 0
      ∧ ses.charge reason policy = 0)
  ∧ (∀ (ses : Session) (policy : Policy) (reason : EndReason),
      (reason = .fault ∨ reason = .operator →
        ses.charge reason .full = 0 ∧ ses.charge reason .unused = ses.unusedCharge
        ∧ ses.charge reason .none = ses.wholeCharge)
      ∧ (reason = .cycleLost ∨ reason = .powerLoss ∨ reason = .restarted →
        ses.charge reason policy = ses.unusedCharge)
      ∧ (ses.mclass = .dryer → reason = .abandoned ∨ reason = .doneTimeout →
        ses.charge reason policy = ses.unusedCharge))
  ∧ ∀ (ses : Session) (policy : Policy), ses.cclass ≠ .service →
      (ses.mclass = .washer →
        ses.net = washerPrice ses.base ses.surcharge ses.m ses.d ∧ ses.charge .completed policy = ses.net
        ∧ ses.unusedCharge = washerPartial ses.net ses.elapsed ses.n ∧ ses.wholeCharge = ses.net)
      ∧ (ses.mclass = .dryer →
        ses.unusedCharge = dryerCharge ses.m ses.d ses.ph ses.pc ses.heated ses.cool
        ∧ ses.charge .completed policy = ses.unusedCharge
        ∧ ses.wholeCharge = dryerHold ses.m ses.d ses.ph ses.purchased
        ∧ ∀ p, ses.holdFor p = dryerHold ses.m ses.d ses.ph p)

/-! ## What every step keeps -/

/-- The state after reset keeps every law: the heat budget's, the queues' and tables', and money's; its store is
valid, no session is open, the budget and committed load are 0, and no command waits. It stands for the end of a cold
start with SAG low and both straps at 0 (R61, R120, R188), and the trail shows its two retained writes. Choices of the
model in it: log entries 1, 7, 9, 10, 23, 25 and 26. -/
def Obligations.ResetKeepsLaws : Prop :=
  HeatLaw State.reset ∧ CapacityLaw State.reset ∧ LedgerLaw State.reset
    ∧ State.reset.live = true ∧ State.reset.ret.valid = true ∧ State.reset.pending = []
    ∧ State.reset.openSessions = 0 ∧ State.reset.ret.budget = 0 ∧ State.reset.committed = 0
    ∧ ∀ s : State, s.power.vdd = false → s.power.resetHeld = false → s.ret.valid = false →
      s.pins.sag = false →
      exec (.powerUp false false) s
        = .next { State.reset with
            pending := s.pending, draws := s.draws, lastSent := s.lastSent
            trail := [{ State.reset.ret with valid := false }, s.ret] }

/-- Every step keeps the laws of the heat budget unit while the part is live: committed load never exceeds the active
budget, the grant queue and the grant order hold exactly the QUEUED and GRANTED positions, each once, and no grant is
GRANTED while SAG is not NORMAL (R120, R125, R126, R127, R134). -/
def Obligations.StepKeepsHeatLaw : Prop :=
  ∀ s t : State, (s.live = true → HeatLaw s) → step s = .next t → t.live = true → HeatLaw t

/-- Every step keeps every queue and table within its capacity and its order, wherever a loss of power may cut it:
order queues and outboxes hold at most 4, the request buffer 2, the transmit queue 4, the fault queue 32, and open
sessions and settlement records number at most 64 together (R16, R36, R45, R59, R82, R85, R155, R163, R170, R173,
R183). Choices of the model in it: log entries 7 and 24. -/
def Obligations.StepKeepsCapacities : Prop :=
  ∀ s t : State, CapacityLaw s → step s = .next t → CapacityLaw t

/-- Every step keeps the two laws of every card record: its held amount is at most its balance, and is the sum of the
holds of the open sessions that name it; and it keeps what they rest on, wherever a loss of power may cut the step
(R61, R66 to R70, R94, R183, R186). Choice of the model in it: log entry 7. -/
def Obligations.StepKeepsMoney : Prop :=
  ∀ s t : State, LedgerLaw s → step s = .next t → LedgerLaw t
end

