-- ==== Sys2Proof/Laws/Line.lean ====
section
/-! SUPPORT. Characters on the two lines: what is sent is what is sampled (R1, R167). -/

namespace Sys2Proof.Machine

@[simp] theorem startsAt_charTime (c : BusChar) : startsAt (charTime c) = true := by
  have h : ∀ (d : Byte) (m f : Bool), startsAt (charTime ⟨d, m, f⟩) = true := by decide +kernel
  exact h c.data c.mark c.framing

@[simp] theorem sampleChar_charTime (c : BusChar) : sampleChar (charTime c) = c := by
  have h : ∀ (d : Byte) (m f : Bool), sampleChar (charTime ⟨d, m, f⟩) = ⟨d, m, f⟩ := by decide +kernel
  exact h c.data c.mark c.framing

/-- A character that is not all space is no break. -/
theorem isBreak_charTime (c : BusChar) : isBreak (charTime c) = true ↔ c = ⟨0#8, false, true⟩ := by
  constructor
  · intro h
    rw [← sampleChar_charTime c, eq_of_beq h]
    rfl
  · rintro rfl
    decide

/-- Characters of which none is a break are sampled one by one. -/
theorem busChars_map_charTime (cs : List BusChar) (rest : List BusTime)
    (h : ∀ c ∈ cs, c ≠ ⟨0#8, false, true⟩) :
    busChars (cs.map charTime ++ rest) = (cs ++ (busChars rest).1, (busChars rest).2) := by
  induction cs with
  | nil => simp
  | cons c cs ih =>
    have hc : isBreak (charTime c) = false := by
      rw [Bool.eq_false_iff, ne_eq, isBreak_charTime]
      exact h c (by simp)
    simp [busChars, hc, ih fun x hx => h x (by simp [hx])]

@[simp] theorem startsAt_byteTime (b : LineByte) : startsAt (byteTime b) = true := by
  have h : ∀ (d : Byte) (f : Bool), startsAt (byteTime ⟨d, f⟩) = true := by decide +kernel
  exact h b.data b.framing

@[simp] theorem sampleByte_byteTime (b : LineByte) : sampleByte (byteTime b) = b := by
  have h : ∀ (d : Byte) (f : Bool), sampleByte (byteTime ⟨d, f⟩) = ⟨d, f⟩ := by decide +kernel
  exact h b.data b.framing

/-- Bytes sent on the gateway line are sampled as they were sent. -/
@[simp] theorem lineBytes_map_sentByte (bs : List Byte) :
    lineBytes (bs.map sentByte) = bs.map fun b => { data := b, framing := false } := by
  simp [lineBytes, List.filter_map, Function.comp_def, sentByte]

end Sys2Proof.Machine
end

