-- ==== Sys2Proof/Laws/State.lean ====
section
/-! SUPPORT. One lemma per field per update of the state, true by rfl, and what reading one position or terminal
gives after an update of one. -/

namespace Sys2Proof.Machine

/-! ## State.write -/

@[simp] theorem State.write_pending (f : Retained → Retained) (s : State) :
    (s.write f).pending = s.pending := rfl
@[simp] theorem State.write_ret (f : Retained → Retained) (s : State) :
    (s.write f).ret = f s.ret := rfl
@[simp] theorem State.write_trail (f : Retained → Retained) (s : State) :
    (s.write f).trail = s.ret :: s.trail := rfl
@[simp] theorem State.write_power (f : Retained → Retained) (s : State) :
    (s.write f).power = s.power := rfl
@[simp] theorem State.write_pins (f : Retained → Retained) (s : State) :
    (s.write f).pins = s.pins := rfl
@[simp] theorem State.write_clock (f : Retained → Retained) (s : State) :
    (s.write f).clock = s.clock := rfl
@[simp] theorem State.write_pos (f : Retained → Retained) (s : State) :
    (s.write f).pos = s.pos := rfl
@[simp] theorem State.write_term (f : Retained → Retained) (s : State) :
    (s.write f).term = s.term := rfl
@[simp] theorem State.write_bus (f : Retained → Retained) (s : State) :
    (s.write f).bus = s.bus := rfl
@[simp] theorem State.write_heat (f : Retained → Retained) (s : State) :
    (s.write f).heat = s.heat := rfl
@[simp] theorem State.write_link (f : Retained → Retained) (s : State) :
    (s.write f).link = s.link := rfl
@[simp] theorem State.write_draws (f : Retained → Retained) (s : State) :
    (s.write f).draws = s.draws := rfl
@[simp] theorem State.write_lastSent (f : Retained → Retained) (s : State) :
    (s.write f).lastSent = s.lastSent := rfl

/-! ## State.setRecord -/

@[simp] theorem State.setRecord_pending (p : PosIx) (f : PosRecord → PosRecord) (s : State) :
    (s.setRecord p f).pending = s.pending := rfl
@[simp] theorem State.setRecord_ret (p : PosIx) (f : PosRecord → PosRecord) (s : State) :
    (s.setRecord p f).ret = { s.ret with positions := s.ret.positions.set p.val (f s.ret.positions[p.val]) } := rfl
@[simp] theorem State.setRecord_trail (p : PosIx) (f : PosRecord → PosRecord) (s : State) :
    (s.setRecord p f).trail = s.ret :: s.trail := rfl
@[simp] theorem State.setRecord_power (p : PosIx) (f : PosRecord → PosRecord) (s : State) :
    (s.setRecord p f).power = s.power := rfl
@[simp] theorem State.setRecord_pins (p : PosIx) (f : PosRecord → PosRecord) (s : State) :
    (s.setRecord p f).pins = s.pins := rfl
@[simp] theorem State.setRecord_clock (p : PosIx) (f : PosRecord → PosRecord) (s : State) :
    (s.setRecord p f).clock = s.clock := rfl
@[simp] theorem State.setRecord_pos (p : PosIx) (f : PosRecord → PosRecord) (s : State) :
    (s.setRecord p f).pos = s.pos := rfl
@[simp] theorem State.setRecord_term (p : PosIx) (f : PosRecord → PosRecord) (s : State) :
    (s.setRecord p f).term = s.term := rfl
@[simp] theorem State.setRecord_bus (p : PosIx) (f : PosRecord → PosRecord) (s : State) :
    (s.setRecord p f).bus = s.bus := rfl
@[simp] theorem State.setRecord_heat (p : PosIx) (f : PosRecord → PosRecord) (s : State) :
    (s.setRecord p f).heat = s.heat := rfl
@[simp] theorem State.setRecord_link (p : PosIx) (f : PosRecord → PosRecord) (s : State) :
    (s.setRecord p f).link = s.link := rfl
@[simp] theorem State.setRecord_draws (p : PosIx) (f : PosRecord → PosRecord) (s : State) :
    (s.setRecord p f).draws = s.draws := rfl
@[simp] theorem State.setRecord_lastSent (p : PosIx) (f : PosRecord → PosRecord) (s : State) :
    (s.setRecord p f).lastSent = s.lastSent := rfl

/-! ## State.setSession -/

@[simp] theorem State.setSession_pending (p : PosIx) (f : Option Session → Option Session) (s : State) :
    (s.setSession p f).pending = s.pending := rfl
@[simp] theorem State.setSession_ret (p : PosIx) (f : Option Session → Option Session) (s : State) :
    (s.setSession p f).ret = { s.ret with sessions := s.ret.sessions.set p.val (f s.ret.sessions[p.val]) } := rfl
@[simp] theorem State.setSession_trail (p : PosIx) (f : Option Session → Option Session) (s : State) :
    (s.setSession p f).trail = s.ret :: s.trail := rfl
@[simp] theorem State.setSession_power (p : PosIx) (f : Option Session → Option Session) (s : State) :
    (s.setSession p f).power = s.power := rfl
@[simp] theorem State.setSession_pins (p : PosIx) (f : Option Session → Option Session) (s : State) :
    (s.setSession p f).pins = s.pins := rfl
@[simp] theorem State.setSession_clock (p : PosIx) (f : Option Session → Option Session) (s : State) :
    (s.setSession p f).clock = s.clock := rfl
@[simp] theorem State.setSession_pos (p : PosIx) (f : Option Session → Option Session) (s : State) :
    (s.setSession p f).pos = s.pos := rfl
@[simp] theorem State.setSession_term (p : PosIx) (f : Option Session → Option Session) (s : State) :
    (s.setSession p f).term = s.term := rfl
@[simp] theorem State.setSession_bus (p : PosIx) (f : Option Session → Option Session) (s : State) :
    (s.setSession p f).bus = s.bus := rfl
@[simp] theorem State.setSession_heat (p : PosIx) (f : Option Session → Option Session) (s : State) :
    (s.setSession p f).heat = s.heat := rfl
@[simp] theorem State.setSession_link (p : PosIx) (f : Option Session → Option Session) (s : State) :
    (s.setSession p f).link = s.link := rfl
@[simp] theorem State.setSession_draws (p : PosIx) (f : Option Session → Option Session) (s : State) :
    (s.setSession p f).draws = s.draws := rfl
@[simp] theorem State.setSession_lastSent (p : PosIx) (f : Option Session → Option Session) (s : State) :
    (s.setSession p f).lastSent = s.lastSent := rfl

/-! ## State.setVol -/

@[simp] theorem State.setVol_pending (p : PosIx) (f : PosState → PosState) (s : State) :
    (s.setVol p f).pending = s.pending := rfl
@[simp] theorem State.setVol_ret (p : PosIx) (f : PosState → PosState) (s : State) :
    (s.setVol p f).ret = s.ret := rfl
@[simp] theorem State.setVol_trail (p : PosIx) (f : PosState → PosState) (s : State) :
    (s.setVol p f).trail = s.trail := rfl
@[simp] theorem State.setVol_power (p : PosIx) (f : PosState → PosState) (s : State) :
    (s.setVol p f).power = s.power := rfl
@[simp] theorem State.setVol_pins (p : PosIx) (f : PosState → PosState) (s : State) :
    (s.setVol p f).pins = s.pins := rfl
@[simp] theorem State.setVol_clock (p : PosIx) (f : PosState → PosState) (s : State) :
    (s.setVol p f).clock = s.clock := rfl
@[simp] theorem State.setVol_pos (p : PosIx) (f : PosState → PosState) (s : State) :
    (s.setVol p f).pos = s.pos.set p.val (f s.pos[p.val]) := rfl
@[simp] theorem State.setVol_term (p : PosIx) (f : PosState → PosState) (s : State) :
    (s.setVol p f).term = s.term := rfl
@[simp] theorem State.setVol_bus (p : PosIx) (f : PosState → PosState) (s : State) :
    (s.setVol p f).bus = s.bus := rfl
@[simp] theorem State.setVol_heat (p : PosIx) (f : PosState → PosState) (s : State) :
    (s.setVol p f).heat = s.heat := rfl
@[simp] theorem State.setVol_link (p : PosIx) (f : PosState → PosState) (s : State) :
    (s.setVol p f).link = s.link := rfl
@[simp] theorem State.setVol_draws (p : PosIx) (f : PosState → PosState) (s : State) :
    (s.setVol p f).draws = s.draws := rfl
@[simp] theorem State.setVol_lastSent (p : PosIx) (f : PosState → PosState) (s : State) :
    (s.setVol p f).lastSent = s.lastSent := rfl

/-! ## State.setTerm -/

@[simp] theorem State.setTerm_pending (t : TermIx) (f : TermState → TermState) (s : State) :
    (s.setTerm t f).pending = s.pending := rfl
@[simp] theorem State.setTerm_ret (t : TermIx) (f : TermState → TermState) (s : State) :
    (s.setTerm t f).ret = s.ret := rfl
@[simp] theorem State.setTerm_trail (t : TermIx) (f : TermState → TermState) (s : State) :
    (s.setTerm t f).trail = s.trail := rfl
@[simp] theorem State.setTerm_power (t : TermIx) (f : TermState → TermState) (s : State) :
    (s.setTerm t f).power = s.power := rfl
@[simp] theorem State.setTerm_pins (t : TermIx) (f : TermState → TermState) (s : State) :
    (s.setTerm t f).pins = s.pins := rfl
@[simp] theorem State.setTerm_clock (t : TermIx) (f : TermState → TermState) (s : State) :
    (s.setTerm t f).clock = s.clock := rfl
@[simp] theorem State.setTerm_pos (t : TermIx) (f : TermState → TermState) (s : State) :
    (s.setTerm t f).pos = s.pos := rfl
@[simp] theorem State.setTerm_term (t : TermIx) (f : TermState → TermState) (s : State) :
    (s.setTerm t f).term = s.term.set t.val (f s.term[t.val]) := rfl
@[simp] theorem State.setTerm_bus (t : TermIx) (f : TermState → TermState) (s : State) :
    (s.setTerm t f).bus = s.bus := rfl
@[simp] theorem State.setTerm_heat (t : TermIx) (f : TermState → TermState) (s : State) :
    (s.setTerm t f).heat = s.heat := rfl
@[simp] theorem State.setTerm_link (t : TermIx) (f : TermState → TermState) (s : State) :
    (s.setTerm t f).link = s.link := rfl
@[simp] theorem State.setTerm_draws (t : TermIx) (f : TermState → TermState) (s : State) :
    (s.setTerm t f).draws = s.draws := rfl
@[simp] theorem State.setTerm_lastSent (t : TermIx) (f : TermState → TermState) (s : State) :
    (s.setTerm t f).lastSent = s.lastSent := rfl

/-! ## State.setBus -/

@[simp] theorem State.setBus_pending (f : BusState → BusState) (s : State) :
    (s.setBus f).pending = s.pending := rfl
@[simp] theorem State.setBus_ret (f : BusState → BusState) (s : State) :
    (s.setBus f).ret = s.ret := rfl
@[simp] theorem State.setBus_trail (f : BusState → BusState) (s : State) :
    (s.setBus f).trail = s.trail := rfl
@[simp] theorem State.setBus_power (f : BusState → BusState) (s : State) :
    (s.setBus f).power = s.power := rfl
@[simp] theorem State.setBus_pins (f : BusState → BusState) (s : State) :
    (s.setBus f).pins = s.pins := rfl
@[simp] theorem State.setBus_clock (f : BusState → BusState) (s : State) :
    (s.setBus f).clock = s.clock := rfl
@[simp] theorem State.setBus_pos (f : BusState → BusState) (s : State) :
    (s.setBus f).pos = s.pos := rfl
@[simp] theorem State.setBus_term (f : BusState → BusState) (s : State) :
    (s.setBus f).term = s.term := rfl
@[simp] theorem State.setBus_bus (f : BusState → BusState) (s : State) :
    (s.setBus f).bus = f s.bus := rfl
@[simp] theorem State.setBus_heat (f : BusState → BusState) (s : State) :
    (s.setBus f).heat = s.heat := rfl
@[simp] theorem State.setBus_link (f : BusState → BusState) (s : State) :
    (s.setBus f).link = s.link := rfl
@[simp] theorem State.setBus_draws (f : BusState → BusState) (s : State) :
    (s.setBus f).draws = s.draws := rfl
@[simp] theorem State.setBus_lastSent (f : BusState → BusState) (s : State) :
    (s.setBus f).lastSent = s.lastSent := rfl

/-! ## State.setHeat -/

@[simp] theorem State.setHeat_pending (f : HeatState → HeatState) (s : State) :
    (s.setHeat f).pending = s.pending := rfl
@[simp] theorem State.setHeat_ret (f : HeatState → HeatState) (s : State) :
    (s.setHeat f).ret = s.ret := rfl
@[simp] theorem State.setHeat_trail (f : HeatState → HeatState) (s : State) :
    (s.setHeat f).trail = s.trail := rfl
@[simp] theorem State.setHeat_power (f : HeatState → HeatState) (s : State) :
    (s.setHeat f).power = s.power := rfl
@[simp] theorem State.setHeat_pins (f : HeatState → HeatState) (s : State) :
    (s.setHeat f).pins = s.pins := rfl
@[simp] theorem State.setHeat_clock (f : HeatState → HeatState) (s : State) :
    (s.setHeat f).clock = s.clock := rfl
@[simp] theorem State.setHeat_pos (f : HeatState → HeatState) (s : State) :
    (s.setHeat f).pos = s.pos := rfl
@[simp] theorem State.setHeat_term (f : HeatState → HeatState) (s : State) :
    (s.setHeat f).term = s.term := rfl
@[simp] theorem State.setHeat_bus (f : HeatState → HeatState) (s : State) :
    (s.setHeat f).bus = s.bus := rfl
@[simp] theorem State.setHeat_heat (f : HeatState → HeatState) (s : State) :
    (s.setHeat f).heat = f s.heat := rfl
@[simp] theorem State.setHeat_link (f : HeatState → HeatState) (s : State) :
    (s.setHeat f).link = s.link := rfl
@[simp] theorem State.setHeat_draws (f : HeatState → HeatState) (s : State) :
    (s.setHeat f).draws = s.draws := rfl
@[simp] theorem State.setHeat_lastSent (f : HeatState → HeatState) (s : State) :
    (s.setHeat f).lastSent = s.lastSent := rfl

/-! ## State.setLink -/

@[simp] theorem State.setLink_pending (f : LinkState → LinkState) (s : State) :
    (s.setLink f).pending = s.pending := rfl
@[simp] theorem State.setLink_ret (f : LinkState → LinkState) (s : State) :
    (s.setLink f).ret = s.ret := rfl
@[simp] theorem State.setLink_trail (f : LinkState → LinkState) (s : State) :
    (s.setLink f).trail = s.trail := rfl
@[simp] theorem State.setLink_power (f : LinkState → LinkState) (s : State) :
    (s.setLink f).power = s.power := rfl
@[simp] theorem State.setLink_pins (f : LinkState → LinkState) (s : State) :
    (s.setLink f).pins = s.pins := rfl
@[simp] theorem State.setLink_clock (f : LinkState → LinkState) (s : State) :
    (s.setLink f).clock = s.clock := rfl
@[simp] theorem State.setLink_pos (f : LinkState → LinkState) (s : State) :
    (s.setLink f).pos = s.pos := rfl
@[simp] theorem State.setLink_term (f : LinkState → LinkState) (s : State) :
    (s.setLink f).term = s.term := rfl
@[simp] theorem State.setLink_bus (f : LinkState → LinkState) (s : State) :
    (s.setLink f).bus = s.bus := rfl
@[simp] theorem State.setLink_heat (f : LinkState → LinkState) (s : State) :
    (s.setLink f).heat = s.heat := rfl
@[simp] theorem State.setLink_link (f : LinkState → LinkState) (s : State) :
    (s.setLink f).link = f s.link := rfl
@[simp] theorem State.setLink_draws (f : LinkState → LinkState) (s : State) :
    (s.setLink f).draws = s.draws := rfl
@[simp] theorem State.setLink_lastSent (f : LinkState → LinkState) (s : State) :
    (s.setLink f).lastSent = s.lastSent := rfl

/-! ## State.markChanged -/

@[simp] theorem State.markChanged_pending (p : PosIx) (s : State) :
    (s.markChanged p).pending = s.pending := rfl
@[simp] theorem State.markChanged_ret (p : PosIx) (s : State) :
    (s.markChanged p).ret = s.ret := rfl
@[simp] theorem State.markChanged_trail (p : PosIx) (s : State) :
    (s.markChanged p).trail = s.trail := rfl
@[simp] theorem State.markChanged_power (p : PosIx) (s : State) :
    (s.markChanged p).power = s.power := rfl
@[simp] theorem State.markChanged_pins (p : PosIx) (s : State) :
    (s.markChanged p).pins = s.pins := rfl
@[simp] theorem State.markChanged_clock (p : PosIx) (s : State) :
    (s.markChanged p).clock = s.clock := rfl
@[simp] theorem State.markChanged_pos (p : PosIx) (s : State) :
    (s.markChanged p).pos = s.pos.set p.val { s.pos[p.val] with changed := true } := rfl
@[simp] theorem State.markChanged_term (p : PosIx) (s : State) :
    (s.markChanged p).term = s.term := rfl
@[simp] theorem State.markChanged_bus (p : PosIx) (s : State) :
    (s.markChanged p).bus = s.bus := rfl
@[simp] theorem State.markChanged_heat (p : PosIx) (s : State) :
    (s.markChanged p).heat = s.heat := rfl
@[simp] theorem State.markChanged_link (p : PosIx) (s : State) :
    (s.markChanged p).link = s.link := rfl
@[simp] theorem State.markChanged_draws (p : PosIx) (s : State) :
    (s.markChanged p).draws = s.draws := rfl
@[simp] theorem State.markChanged_lastSent (p : PosIx) (s : State) :
    (s.markChanged p).lastSent = s.lastSent := rfl

/-! ## Reading after an update -/

@[simp] theorem State.vol_setVol (p q : PosIx) (f : PosState → PosState) (s : State) :
    (s.setVol p f).vol q = if p = q then f (s.vol p) else s.vol q := by
  unfold State.vol State.setVol
  by_cases h : p = q
  · subst h; simp
  · have hv : p.val ≠ q.val := fun e => h (Fin.ext e)
    simp [h, hv]

@[simp] theorem State.record_setRecord (p q : PosIx) (f : PosRecord → PosRecord) (s : State) :
    (s.setRecord p f).record q = if p = q then f (s.record p) else s.record q := by
  unfold State.record State.setRecord State.write
  by_cases h : p = q
  · subst h; simp
  · have hv : p.val ≠ q.val := fun e => h (Fin.ext e)
    simp [h, hv]

@[simp] theorem State.session_setSession (p q : PosIx) (f : Option Session → Option Session) (s : State) :
    (s.setSession p f).session q = if p = q then f (s.session p) else s.session q := by
  unfold State.session State.setSession State.write
  by_cases h : p = q
  · subst h; simp
  · have hv : p.val ≠ q.val := fun e => h (Fin.ext e)
    simp [h, hv]

@[simp] theorem State.terminal_setTerm (p q : TermIx) (f : TermState → TermState) (s : State) :
    (s.setTerm p f).terminal q = if p = q then f (s.terminal p) else s.terminal q := by
  unfold State.terminal State.setTerm
  by_cases h : p = q
  · subst h; simp
  · have hv : p.val ≠ q.val := fun e => h (Fin.ext e)
    simp [h, hv]

@[simp] theorem State.record_setVol_same (q p : PosIx) (f : PosState → PosState) (s : State) :
    (s.setVol p f).record q = s.record q := rfl
@[simp] theorem State.session_setVol_same (q p : PosIx) (f : PosState → PosState) (s : State) :
    (s.setVol p f).session q = s.session q := rfl
@[simp] theorem State.terminal_setVol_same (q : TermIx) (p : PosIx) (f : PosState → PosState) (s : State) :
    (s.setVol p f).terminal q = s.terminal q := rfl
@[simp] theorem State.termConfigured_setVol_same (q : TermIx) (p : PosIx) (f : PosState → PosState) (s : State) :
    (s.setVol p f).termConfigured q = s.termConfigured q := rfl
@[simp] theorem State.configured_setVol_same (q p : PosIx) (f : PosState → PosState) (s : State) :
    (s.setVol p f).configured q = s.configured q := rfl
@[simp] theorem State.card_setVol_same (id : CardId) (p : PosIx) (f : PosState → PosState) (s : State) :
    (s.setVol p f).card id = s.card id := rfl
@[simp] theorem State.vol_setTerm_same (q : PosIx) (t : TermIx) (f : TermState → TermState) (s : State) :
    (s.setTerm t f).vol q = s.vol q := rfl
@[simp] theorem State.record_setTerm_same (q : PosIx) (t : TermIx) (f : TermState → TermState) (s : State) :
    (s.setTerm t f).record q = s.record q := rfl
@[simp] theorem State.session_setTerm_same (q : PosIx) (t : TermIx) (f : TermState → TermState) (s : State) :
    (s.setTerm t f).session q = s.session q := rfl
@[simp] theorem State.termConfigured_setTerm_same (q t : TermIx) (f : TermState → TermState) (s : State) :
    (s.setTerm t f).termConfigured q = s.termConfigured q := rfl
@[simp] theorem State.configured_setTerm_same (q : PosIx) (t : TermIx) (f : TermState → TermState) (s : State) :
    (s.setTerm t f).configured q = s.configured q := rfl
@[simp] theorem State.card_setTerm_same (id : CardId) (t : TermIx) (f : TermState → TermState) (s : State) :
    (s.setTerm t f).card id = s.card id := rfl
@[simp] theorem State.vol_setBus_same (q : PosIx) (f : BusState → BusState) (s : State) :
    (s.setBus f).vol q = s.vol q := rfl
@[simp] theorem State.record_setBus_same (q : PosIx) (f : BusState → BusState) (s : State) :
    (s.setBus f).record q = s.record q := rfl
@[simp] theorem State.session_setBus_same (q : PosIx) (f : BusState → BusState) (s : State) :
    (s.setBus f).session q = s.session q := rfl
@[simp] theorem State.terminal_setBus_same (q : TermIx) (f : BusState → BusState) (s : State) :
    (s.setBus f).terminal q = s.terminal q := rfl
@[simp] theorem State.termConfigured_setBus_same (q : TermIx) (f : BusState → BusState) (s : State) :
    (s.setBus f).termConfigured q = s.termConfigured q := rfl
@[simp] theorem State.configured_setBus_same (q : PosIx) (f : BusState → BusState) (s : State) :
    (s.setBus f).configured q = s.configured q := rfl
@[simp] theorem State.card_setBus_same (id : CardId) (f : BusState → BusState) (s : State) :
    (s.setBus f).card id = s.card id := rfl
@[simp] theorem State.vol_setHeat_same (q : PosIx) (f : HeatState → HeatState) (s : State) :
    (s.setHeat f).vol q = s.vol q := rfl
@[simp] theorem State.record_setHeat_same (q : PosIx) (f : HeatState → HeatState) (s : State) :
    (s.setHeat f).record q = s.record q := rfl
@[simp] theorem State.session_setHeat_same (q : PosIx) (f : HeatState → HeatState) (s : State) :
    (s.setHeat f).session q = s.session q := rfl
@[simp] theorem State.terminal_setHeat_same (q : TermIx) (f : HeatState → HeatState) (s : State) :
    (s.setHeat f).terminal q = s.terminal q := rfl
@[simp] theorem State.termConfigured_setHeat_same (q : TermIx) (f : HeatState → HeatState) (s : State) :
    (s.setHeat f).termConfigured q = s.termConfigured q := rfl
@[simp] theorem State.configured_setHeat_same (q : PosIx) (f : HeatState → HeatState) (s : State) :
    (s.setHeat f).configured q = s.configured q := rfl
@[simp] theorem State.card_setHeat_same (id : CardId) (f : HeatState → HeatState) (s : State) :
    (s.setHeat f).card id = s.card id := rfl
@[simp] theorem State.vol_setLink_same (q : PosIx) (f : LinkState → LinkState) (s : State) :
    (s.setLink f).vol q = s.vol q := rfl
@[simp] theorem State.record_setLink_same (q : PosIx) (f : LinkState → LinkState) (s : State) :
    (s.setLink f).record q = s.record q := rfl
@[simp] theorem State.session_setLink_same (q : PosIx) (f : LinkState → LinkState) (s : State) :
    (s.setLink f).session q = s.session q := rfl
@[simp] theorem State.terminal_setLink_same (q : TermIx) (f : LinkState → LinkState) (s : State) :
    (s.setLink f).terminal q = s.terminal q := rfl
@[simp] theorem State.termConfigured_setLink_same (q : TermIx) (f : LinkState → LinkState) (s : State) :
    (s.setLink f).termConfigured q = s.termConfigured q := rfl
@[simp] theorem State.configured_setLink_same (q : PosIx) (f : LinkState → LinkState) (s : State) :
    (s.setLink f).configured q = s.configured q := rfl
@[simp] theorem State.card_setLink_same (id : CardId) (f : LinkState → LinkState) (s : State) :
    (s.setLink f).card id = s.card id := rfl
@[simp] theorem State.vol_setRecord_same (q p : PosIx) (f : PosRecord → PosRecord) (s : State) :
    (s.setRecord p f).vol q = s.vol q := rfl
@[simp] theorem State.session_setRecord_same (q p : PosIx) (f : PosRecord → PosRecord) (s : State) :
    (s.setRecord p f).session q = s.session q := rfl
@[simp] theorem State.terminal_setRecord_same (q : TermIx) (p : PosIx) (f : PosRecord → PosRecord) (s : State) :
    (s.setRecord p f).terminal q = s.terminal q := rfl
@[simp] theorem State.termConfigured_setRecord_same (q : TermIx) (p : PosIx) (f : PosRecord → PosRecord) (s : State) :
    (s.setRecord p f).termConfigured q = s.termConfigured q := rfl
@[simp] theorem State.card_setRecord_same (id : CardId) (p : PosIx) (f : PosRecord → PosRecord) (s : State) :
    (s.setRecord p f).card id = s.card id := rfl
@[simp] theorem State.vol_setSession_same (q p : PosIx) (f : Option Session → Option Session) (s : State) :
    (s.setSession p f).vol q = s.vol q := rfl
@[simp] theorem State.record_setSession_same (q p : PosIx) (f : Option Session → Option Session) (s : State) :
    (s.setSession p f).record q = s.record q := rfl
@[simp] theorem State.terminal_setSession_same (q : TermIx) (p : PosIx) (f : Option Session → Option Session) (s : State) :
    (s.setSession p f).terminal q = s.terminal q := rfl
@[simp] theorem State.termConfigured_setSession_same (q : TermIx) (p : PosIx) (f : Option Session → Option Session) (s : State) :
    (s.setSession p f).termConfigured q = s.termConfigured q := rfl
@[simp] theorem State.configured_setSession_same (q p : PosIx) (f : Option Session → Option Session) (s : State) :
    (s.setSession p f).configured q = s.configured q := rfl
@[simp] theorem State.card_setSession_same (id : CardId) (p : PosIx) (f : Option Session → Option Session) (s : State) :
    (s.setSession p f).card id = s.card id := rfl
@[simp] theorem State.vol_write_same (q : PosIx) (f : Retained → Retained) (s : State) :
    (s.write f).vol q = s.vol q := rfl
@[simp] theorem State.terminal_write_same (q : TermIx) (f : Retained → Retained) (s : State) :
    (s.write f).terminal q = s.terminal q := rfl

end Sys2Proof.Machine
end

