-- ==== Sys2Proof/Laws/Queue.lean ====
section
/-! SUPPORT. What one step with a HALT or HEAT_OFF can do (R37, R38, R40), and how the steps follow each other
(R35). -/

namespace Sys2Proof.Machine

/-- A step removes an order that the new one cancels, or merges, or places, or makes room. -/
theorem Urgent.step_cases (u : Urgent) (q : List Order) :
    (∃ before o after, q = before ++ o :: after ∧ u.cancels o = true ∧ (∀ x ∈ before, u.cancels x = false)
      ∧ u.step q = { orders := before ++ after, removed := some o, finished := u == .heatOff })
    ∨ ((∀ o ∈ q, u.cancels o = false)
      ∧ ((u.merges q = true ∧ u.step q = { orders := q, removed := none, finished := true })
        ∨ (u.merges q = false ∧ q.length < Config.orderCapacity
          ∧ u.step q = { orders := u.place q, removed := none, finished := true })
        ∨ (u.merges q = false ∧ Config.orderCapacity ≤ q.length
          ∧ u.step q = { orders := (makeRoom q).1, removed := (makeRoom q).2
                         finished := !q.any Order.displaceable }))) := by
  by_cases h : q.any u.cancels = true
  · left
    obtain ⟨o, ho, hc⟩ := List.any_eq_true.mp h
    obtain ⟨a, l₁, l₂, h₁, ha, hq, he⟩ := List.exists_of_eraseP ho hc
    have hf : q.find? u.cancels = some a := by
      rw [hq, List.find?_append, List.find?_eq_none.mpr fun x hx => h₁ x hx]
      simp [ha]
    exact ⟨l₁, a, l₂, hq, ha, fun x hx => by simpa using h₁ x hx, by simp [Urgent.step, h, hf, he]⟩
  · right
    refine ⟨by simpa using h, ?_⟩
    by_cases hm : u.merges q = true
    · exact .inl ⟨hm, by simp [Urgent.step, h, hm]⟩
    · by_cases hl : q.length < Config.orderCapacity
      · exact .inr (.inl ⟨by simpa using hm, hl, by simp [Urgent.step, h, hm, hl]⟩)
      · exact .inr (.inr ⟨by simpa using hm, by omega, by simp [Urgent.step, h, hm, hl]⟩)

/-- A step that leaves nothing to do is the last one. -/
theorem askUrgentFor_last (wd : PosIx → State → State) (u : Urgent) (p : PosIx) (k : Nat) (s : State)
    (h : (u.step (s.vol p).orders).finished = true) :
    askUrgentFor wd u p (k + 1) s = makeStep wd p (u.step (s.vol p).orders) s := by
  simp [askUrgentFor, h]

/-- Any other step is followed by the next one, on the queue as its report left it. -/
theorem askUrgentFor_next (wd : PosIx → State → State) (u : Urgent) (p : PosIx) (k : Nat) (s : State)
    (h : (u.step (s.vol p).orders).finished = false) :
    askUrgentFor wd u p (k + 1) s
      = askUrgentFor wd u p k (makeStep wd p (u.step (s.vol p).orders) s) := by
  simp [askUrgentFor, h]

/-- A step that removes nothing changes the queue alone. -/
theorem makeStep_none (wd : PosIx → State → State) (p : PosIx) (n : UrgentStep) (s : State)
    (h : n.removed = none) : makeStep wd p n s = s.setVol p fun v => { v with orders := n.orders } := by
  simp [makeStep, afterRemoval, h]

/-- The removal of an order that is not a display order is reported, and an owed display order is tried. -/
theorem makeStep_report (wd : PosIx → State → State) (p : PosIx) (n : UrgentStep) (s : State) (o : Order)
    (h : n.removed = some o) (hd : o.body.display = false) :
    makeStep wd p n s
      = serveOwed p (reportCancelled wd p o (s.setVol p fun v => { v with orders := n.orders })) := by
  simp [makeStep, afterRemoval, h, hd]

end Sys2Proof.Machine
end

