-- ==== Sys2Proof/Laws/Room.lean ====
section
/-! SUPPORT. What the operations of the room leave alone: the queue of commands, the supply, the pins, the clock,
the bus, the gateway link and the loaded tables. One lemma per operation, in the form that chains: when `s` was
reached from `s₀` by such changes, so was what the operation makes of `s`. -/

namespace Sys2Proof.Machine

/-- From `s` to `t` only the room's own state changed: sessions, cards, settlements, faults, budgets,
positions, terminals' outboxes and grants. -/
structure RoomOnly (s t : State) : Prop where
  pending : t.pending = s.pending
  power : t.power = s.power
  pins : t.pins = s.pins
  clock : t.clock = s.clock
  bus : t.bus = s.bus
  link : t.link = s.link
  draws : t.draws = s.draws
  lastSent : t.lastSent = s.lastSent
  terminals : t.ret.terminals = s.ret.terminals
  prices : t.ret.prices = s.ret.prices
  bands : t.ret.bands = s.ret.bands
  classes : t.ret.classes = s.ret.classes
  config : t.ret.config = s.ret.config
  valid : t.ret.valid = s.ret.valid
  configs : ∀ p, (t.record p).config = (s.record p).config

theorem RoomOnly.refl (s : State) : RoomOnly s s :=
  ⟨rfl, rfl, rfl, rfl, rfl, rfl, rfl, rfl, rfl, rfl, rfl, rfl, rfl, rfl, fun _ => rfl⟩

theorem RoomOnly.trans {s t u : State} (h : RoomOnly s t) (k : RoomOnly t u) : RoomOnly s u :=
  ⟨k.pending.trans h.pending, k.power.trans h.power, k.pins.trans h.pins, k.clock.trans h.clock,
   k.bus.trans h.bus, k.link.trans h.link, k.draws.trans h.draws, k.lastSent.trans h.lastSent,
   k.terminals.trans h.terminals, k.prices.trans h.prices, k.bands.trans h.bands,
   k.classes.trans h.classes, k.config.trans h.config, k.valid.trans h.valid,
   fun p => (k.configs p).trans (h.configs p)⟩

/-- The live predicate follows the supply alone. -/
theorem RoomOnly.live {s t : State} (h : RoomOnly s t) : t.live = s.live := by
  unfold State.live; rw [h.power]

variable {s₀ s : State}

/-- A fold of steps that each keep to the room keeps to the room. -/
theorem RoomOnly.foldl {α : Type} (f : State → α → State)
    (hf : ∀ a {s₀ s : State}, RoomOnly s₀ s → RoomOnly s₀ (f s a)) (xs : List α) :
    ∀ {s : State}, RoomOnly s₀ s → RoomOnly s₀ (xs.foldl f s) := by
  induction xs with
  | nil => exact id
  | cons x xs ih => exact fun h => ih (hf x h)

/-! ## Updates -/

theorem setVol_room (p : PosIx) (f : PosState → PosState) (h : RoomOnly s₀ s) :
    RoomOnly s₀ (s.setVol p f) :=
  h.trans ⟨rfl, rfl, rfl, rfl, rfl, rfl, rfl, rfl, rfl, rfl, rfl, rfl, rfl, rfl, fun _ => rfl⟩

theorem setTerm_room (t : TermIx) (f : TermState → TermState) (h : RoomOnly s₀ s) :
    RoomOnly s₀ (s.setTerm t f) :=
  h.trans ⟨rfl, rfl, rfl, rfl, rfl, rfl, rfl, rfl, rfl, rfl, rfl, rfl, rfl, rfl, fun _ => rfl⟩

theorem setHeat_room (f : HeatState → HeatState) (h : RoomOnly s₀ s) : RoomOnly s₀ (s.setHeat f) :=
  h.trans ⟨rfl, rfl, rfl, rfl, rfl, rfl, rfl, rfl, rfl, rfl, rfl, rfl, rfl, rfl, fun _ => rfl⟩

theorem setSession_room (p : PosIx) (f : Option Session → Option Session) (h : RoomOnly s₀ s) :
    RoomOnly s₀ (s.setSession p f) :=
  h.trans ⟨rfl, rfl, rfl, rfl, rfl, rfl, rfl, rfl, rfl, rfl, rfl, rfl, rfl, rfl, fun _ => rfl⟩

theorem markChanged_room (p : PosIx) (h : RoomOnly s₀ s) : RoomOnly s₀ (s.markChanged p) :=
  setVol_room _ _ h

theorem setRecord_room (p : PosIx) (f : PosRecord → PosRecord) (hf : ∀ r, (f r).config = r.config)
    (h : RoomOnly s₀ s) : RoomOnly s₀ (s.setRecord p f) := by
  refine h.trans ⟨rfl, rfl, rfl, rfl, rfl, rfl, rfl, rfl, rfl, rfl, rfl, rfl, rfl, rfl, fun q => ?_⟩
  rw [State.record_setRecord]
  split
  · next e => subst e; exact hf _
  · rfl

/-- A retained write that leaves the loaded tables and the position records alone. -/
theorem write_room (f : Retained → Retained)
    (hf : ∀ r : Retained, (f r).positions = r.positions ∧ (f r).terminals = r.terminals
      ∧ (f r).prices = r.prices ∧ (f r).bands = r.bands ∧ (f r).classes = r.classes
      ∧ (f r).config = r.config ∧ (f r).valid = r.valid)
    (h : RoomOnly s₀ s) : RoomOnly s₀ (s.write f) := by
  obtain ⟨h1, h2, h3, h4, h5, h6, h7⟩ := hf s.ret
  refine h.trans ⟨rfl, rfl, rfl, rfl, rfl, rfl, rfl, rfl, h2, h3, h4, h5, h6, h7, fun q => ?_⟩
  unfold State.record
  simp only [State.write_ret, h1]

theorem appendFault_room (code : Nat) (position : Option PosIx) (severity : Severity)
    (settlement : Option Nat) (detail : Option MissKind) (h : RoomOnly s₀ s) :
    RoomOnly s₀ (appendFault code position severity settlement detail s) :=
  h.trans ⟨rfl, rfl, rfl, rfl, rfl, rfl, rfl, rfl, rfl, rfl, rfl, rfl, rfl, rfl, fun _ => rfl⟩

theorem raiseNotice_room (code : Nat) (position : Option PosIx) (settlement : Option Nat)
    (h : RoomOnly s₀ s) : RoomOnly s₀ (raiseNotice code position settlement s) :=
  appendFault_room _ _ _ _ _ h

/-! ## The journal -/

theorem applyCard_room (part : CardPart) (h : RoomOnly s₀ s) : RoomOnly s₀ (s.write (applyCard part)) :=
  write_room _ (fun _ => by cases part <;> exact ⟨rfl, rfl, rfl, rfl, rfl, rfl, rfl⟩) h

theorem applySettlement_room (part : Option Settlement) (h : RoomOnly s₀ s) :
    RoomOnly s₀ (s.write (applySettlement part)) :=
  write_room _ (fun _ => by
    cases part with
    | none => exact ⟨rfl, rfl, rfl, rfl, rfl, rfl, rfl⟩
    | some r => unfold applySettlement; dsimp only; split <;> exact ⟨rfl, rfl, rfl, rfl, rfl, rfl, rfl⟩) h

theorem applySession_room (part : SessionPart) (h : RoomOnly s₀ s) :
    RoomOnly s₀ (s.write (applySession part)) :=
  write_room _ (fun _ => by cases part <;> exact ⟨rfl, rfl, rfl, rfl, rfl, rfl, rfl⟩) h

theorem setJournal_room (j : Option JournalEntry) (h : RoomOnly s₀ s) :
    RoomOnly s₀ (s.write fun r => { r with journal := j }) :=
  write_room _ (fun _ => ⟨rfl, rfl, rfl, rfl, rfl, rfl, rfl⟩) h

theorem journalled_room (e : JournalEntry) (h : RoomOnly s₀ s) : RoomOnly s₀ (journalled e s) :=
  setJournal_room _ (applySession_room _ (applySettlement_room _ (applyCard_room _ (setJournal_room _ h))))

theorem rollForward_room (h : RoomOnly s₀ s) : RoomOnly s₀ (rollForward s) := by
  unfold rollForward
  split
  · exact h
  · exact setJournal_room _ (applySession_room _ (applySettlement_room _ (applyCard_room _ h)))

/-! ## Orders -/

theorem placeHold_room (id : CardId) (a : Nat) (part : SessionPart) (h : RoomOnly s₀ s) :
    RoomOnly s₀ (placeHold id a part s) := by
  unfold placeHold
  repeat'
      first
        | exact h
        | with_reducible apply journalled_room

theorem lowerHold_room (id : CardId) (a : Nat) (part : SessionPart) (h : RoomOnly s₀ s) :
    RoomOnly s₀ (lowerHold id a part s) := by
  unfold lowerHold
  repeat'
      first
        | exact h
        | with_reducible apply journalled_room

theorem capture_room (p : PosIx) (ses : Session) (c : Nat) (r : Settlement) (h : RoomOnly s₀ s) :
    RoomOnly s₀ (capture p ses c r s) := by
  unfold capture
  repeat'
      first
        | exact h
        | with_reducible apply journalled_room

theorem appendOrder_room (p : PosIx) (o : Order) (h : RoomOnly s₀ s) :
    RoomOnly s₀ (appendOrder p o s) := by
  unfold appendOrder
  repeat'
      first
        | exact h
        | with_reducible apply setVol_room

theorem askDisplay_room (p : PosIx) (h : RoomOnly s₀ s) :
    RoomOnly s₀ (askDisplay p s) := by
  unfold askDisplay
  repeat'
      first
        | exact h
        | with_reducible apply setVol_room

theorem serveOwed_room (p : PosIx) (h : RoomOnly s₀ s) :
    RoomOnly s₀ (serveOwed p s) := by
  unfold serveOwed
  repeat'
      first
        | exact h
        | with_reducible apply askDisplay_room
        | split

theorem letGo_room (isOwn : OrderBody → Bool) (p : PosIx) (h : RoomOnly s₀ s) :
    RoomOnly s₀ (letGo isOwn p s) := by
  unfold letGo
  repeat'
      first
        | exact h
        | with_reducible apply serveOwed_room
        | with_reducible apply setVol_room
        | split
        | dsimp only

theorem withDisplay_room (p : PosIx) (f : PosRecord → PosRecord) (hf : ∀ r, (f r).config = r.config)
    (h : RoomOnly s₀ s) : RoomOnly s₀ (withDisplay p f s) := by
  unfold withDisplay
  dsimp only
  split
  · exact askDisplay_room _ (setRecord_room p f hf h)
  · exact setRecord_room p f hf h

/-! ## Terminals -/

theorem queueAnswer_room (t : TermIx) (a : Answer) (busy : Bool) (h : RoomOnly s₀ s) :
    RoomOnly s₀ (queueAnswer t a busy s) := by
  unfold queueAnswer
  repeat'
      first
        | exact h
        | with_reducible apply setTerm_room

theorem sendAnswer_room (t : TermIx) (a : Answer) (h : RoomOnly s₀ s) :
    RoomOnly s₀ (sendAnswer t a s) := by
  unfold sendAnswer
  repeat'
      first
        | exact h
        | with_reducible apply queueAnswer_room
        | split

theorem sendDecline_room (t : TermIx) (tag : Byte) (reason : DeclineReason) (id : CardId) (h : RoomOnly s₀ s) :
    RoomOnly s₀ (sendDecline t tag reason id s) := by
  unfold sendDecline
  repeat'
      first
        | exact h
        | with_reducible apply sendAnswer_room

theorem terminalLost_room (t : TermIx) (h : RoomOnly s₀ s) :
    RoomOnly s₀ (terminalLost t s) := by
  unfold terminalLost
  repeat'
      first
        | exact h
        | with_reducible apply setTerm_room

theorem confirmItem_room (t : TermIx) (h : RoomOnly s₀ s) :
    RoomOnly s₀ (confirmItem t s) := by
  unfold confirmItem
  repeat'
      first
        | exact h
        | with_reducible apply setTerm_room

/-! ## The heat budget unit -/

theorem endGrant_room (p : PosIx) (h : RoomOnly s₀ s) :
    RoomOnly s₀ (endGrant p s) := by
  unfold endGrant
  repeat'
      first
        | exact h
        | with_reducible apply setHeat_room
        | with_reducible apply setVol_room

theorem startRelease_room (p : PosIx) (h : RoomOnly s₀ s) :
    RoomOnly s₀ (startRelease p s) := by
  unfold startRelease
  repeat'
      first
        | exact h
        | with_reducible apply setHeat_room
        | with_reducible apply setVol_room

theorem joinQueue_room (p : PosIx) (h : RoomOnly s₀ s) :
    RoomOnly s₀ (joinQueue p s) := by
  unfold joinQueue
  repeat'
      first
        | exact h
        | with_reducible apply setHeat_room
        | with_reducible apply setVol_room

theorem grantHead_room (p : PosIx) (h : RoomOnly s₀ s) :
    RoomOnly s₀ (grantHead p s) := by
  unfold grantHead
  repeat'
      first
        | exact h
        | with_reducible apply appendOrder_room
        | with_reducible apply endGrant_room
        | with_reducible apply setVol_room
        | with_reducible apply setHeat_room
        | split
        | dsimp only

theorem evaluateFor_room (k : Nat) : ∀ {s : State}, RoomOnly s₀ s → RoomOnly s₀ (evaluateFor k s) := by
  induction k with
  | zero => exact fun h => h
  | succ k ih =>
    intro s h
    unfold evaluateFor
    split
    · exact h
    · split
      · exact ih (grantHead_room _ h)
      · exact h

theorem evaluate_room (h : RoomOnly s₀ s) : RoomOnly s₀ (evaluate s) := evaluateFor_room _ h

theorem activatePending_room (h : RoomOnly s₀ s) : RoomOnly s₀ (activatePending s) := by
  unfold activatePending
  split
  · exact h
  · split
    · exact write_room _ (fun _ => ⟨rfl, rfl, rfl, rfl, rfl, rfl, rfl⟩) h
    · exact h

theorem committedFell_room (h : RoomOnly s₀ s) : RoomOnly s₀ (committedFell s) :=
  evaluate_room (activatePending_room h)

theorem heatOnRefused_room (p : PosIx) (h : RoomOnly s₀ s) :
    RoomOnly s₀ (heatOnRefused p s) := by
  unfold heatOnRefused
  repeat'
      first
        | exact h
        | with_reducible apply committedFell_room
        | with_reducible apply endGrant_room
        | split

theorem heatOnCancelled_room (p : PosIx) (h : RoomOnly s₀ s) :
    RoomOnly s₀ (heatOnCancelled p s) := by
  unfold heatOnCancelled
  repeat'
      first
        | exact h
        | with_reducible apply evaluate_room
        | with_reducible apply joinQueue_room
        | with_reducible apply activatePending_room
        | with_reducible apply endGrant_room
        | split

/-! ## Sessions -/

theorem cancelSession_room (p : PosIx) (reason : DeclineReason) (h : RoomOnly s₀ s) :
    RoomOnly s₀ (cancelSession p reason s) := by
  unfold cancelSession
  repeat'
      first
        | exact h
        | with_reducible apply markChanged_room
        | with_reducible apply sendDecline_room
        | with_reducible apply committedFell_room
        | with_reducible apply lowerHold_room
        | with_reducible apply letGo_room
        | split

theorem cancelIfStarting_room (p : PosIx) (reason : DeclineReason) (h : RoomOnly s₀ s) :
    RoomOnly s₀ (cancelIfStarting p reason s) := by
  unfold cancelIfStarting
  repeat'
      first
        | exact h
        | with_reducible apply cancelSession_room
        | split

section withdrawal

variable (wd : PosIx → State → State)
  (hw : ∀ p {s₀ s : State}, RoomOnly s₀ s → RoomOnly s₀ (wd p s))
include hw

theorem goEndingWith_room (p : PosIx) (h : RoomOnly s₀ s) : RoomOnly s₀ (goEndingWith wd p s) := by
  unfold goEndingWith
  dsimp only
  split
  · exact markChanged_room _ (hw _ (appendOrder_room _ _ (setSession_room _ _ h)))
  · exact markChanged_room _ (hw _ (setSession_room _ _ h))

theorem extensionFailWith_room (p : PosIx) (reason : DeclineReason) (h : RoomOnly s₀ s) :
    RoomOnly s₀ (extensionFailWith wd p reason s) := by
  unfold extensionFailWith
  split
  · exact h
  · split
    · exact h
    · dsimp only
      have k := fun (id : CardId) (a : Nat) part t tag r => sendDecline_room t tag r id
        (lowerHold_room id a part (letGo_room OrderBody.isExtend p h))
      split
      · exact goEndingWith_room wd hw _ (k _ _ _ _ _ _)
      · exact k _ _ _ _ _ _

theorem reportCancelled_room (p : PosIx) (o : Order) (h : RoomOnly s₀ s) :
    RoomOnly s₀ (reportCancelled wd p o s) := by
  unfold reportCancelled
  split
  · split
    · exact cancelIfStarting_room _ _ h
    · exact h
  · split
    · exact extensionFailWith_room wd hw _ _ h
    · exact h
  · exact heatOnCancelled_room _ h
  all_goals exact h

theorem makeStep_room (p : PosIx) (n : UrgentStep) (h : RoomOnly s₀ s) :
    RoomOnly s₀ (makeStep wd p n s) := by
  unfold makeStep afterRemoval
  repeat'
      first
        | exact setVol_room _ _ h
        | with_reducible apply serveOwed_room
        | exact reportCancelled_room wd hw _ _ (setVol_room _ _ h)
        | exact setVol_room _ _ (setVol_room _ _ h)
        | split

theorem askUrgentFor_room (u : Urgent) (p : PosIx) (k : Nat) :
    ∀ {s : State}, RoomOnly s₀ s → RoomOnly s₀ (askUrgentFor wd u p k s) := by
  induction k with
  | zero => exact fun h => makeStep_room wd hw _ _ h
  | succ k ih =>
    intro s h
    unfold askUrgentFor
    dsimp only
    split
    · exact makeStep_room wd hw _ _ h
    · exact ih (makeStep_room wd hw _ _ h)

end withdrawal

theorem withdraw_room (p : PosIx) (h : RoomOnly s₀ s) : RoomOnly s₀ (withdraw p s) := by
  unfold withdraw
  split
  · exact h
  · exact h
  · exact evaluate_room (endGrant_room _ h)
  · exact askUrgentFor_room _ (fun _ {_ _} h => h) _ _ _ (startRelease_room _ h)

theorem askHeatOff_room (p : PosIx) (h : RoomOnly s₀ s) : RoomOnly s₀ (askHeatOff p s) :=
  askUrgentFor_room _ (fun p {_ _} h => withdraw_room p h) _ _ _ h

theorem askHalt_room (p : PosIx) (h : RoomOnly s₀ s) : RoomOnly s₀ (askHalt p s) :=
  askUrgentFor_room _ (fun p {_ _} h => withdraw_room p h) _ _ _ h

theorem goEnding_room (p : PosIx) (h : RoomOnly s₀ s) : RoomOnly s₀ (goEnding p s) :=
  goEndingWith_room _ (fun p {_ _} h => withdraw_room p h) _ h

theorem extensionFail_room (p : PosIx) (reason : DeclineReason) (h : RoomOnly s₀ s) :
    RoomOnly s₀ (extensionFail p reason s) :=
  extensionFailWith_room _ (fun p {_ _} h => withdraw_room p h) _ _ h

theorem closeSession_room (p : PosIx) (e : Ending) (h : RoomOnly s₀ s) :
    RoomOnly s₀ (closeSession p e s) := by
  unfold closeSession
  split
  · exact h
  · next ses _ =>
    have k := fun c r => withdraw_room p (committedFell_room
      (capture_room p ses c r (letGo_room OrderBody.isExtend p h)))
    generalize ses.ext = x
    cases x with
    | none =>
      dsimp only
      split
      · exact setVol_room _ _ (markChanged_room _ (k _ _))
      · exact markChanged_room _ (k _ _)
    | some x =>
      dsimp only
      split
      · exact setVol_room _ _ (markChanged_room _ (sendDecline_room _ _ _ _ (k _ _)))
      · exact markChanged_room _ (sendDecline_room _ _ _ _ (k _ _))

theorem createSession_room (p : PosIx) (ses : Session) (h : RoomOnly s₀ s) :
    RoomOnly s₀ (createSession p ses s) := by
  unfold createSession
  repeat'
      first
        | exact h
        | with_reducible apply cancelSession_room
        | with_reducible apply markChanged_room
        | with_reducible apply setSession_room
        | with_reducible apply appendOrder_room
        | with_reducible apply setVol_room
        | with_reducible apply placeHold_room
        | split
        | dsimp only

theorem recordTopup_room (p : PosIx) (t : TermIx) (reqTag : Byte) (minutes increment : Nat) (h : RoomOnly s₀ s) :
    RoomOnly s₀ (recordTopup p t reqTag minutes increment s) := by
  unfold recordTopup
  repeat'
      first
        | exact h
        | with_reducible apply setSession_room
        | with_reducible apply appendOrder_room
        | with_reducible apply extensionFail_room
        | with_reducible apply placeHold_room
        | split
        | dsimp only

theorem takeRequest_room (p : PosIx) (t : TermIx) (r : CardRequest) (h : RoomOnly s₀ s) :
    RoomOnly s₀ (takeRequest p t r s) := by
  unfold takeRequest
  repeat'
      first
        | exact h
        | with_reducible apply sendDecline_room
        | with_reducible apply createSession_room
        | with_reducible apply recordTopup_room
        | split

theorem startTaken_room (p : PosIx) (h : RoomOnly s₀ s) :
    RoomOnly s₀ (startTaken p s) := by
  unfold startTaken
  repeat'
      first
        | exact h
        | with_reducible apply markChanged_room
        | with_reducible apply sendAnswer_room
        | with_reducible apply setSession_room
        | split

theorem extendTaken_room (p : PosIx) (h : RoomOnly s₀ s) :
    RoomOnly s₀ (extendTaken p s) := by
  unfold extendTaken
  repeat'
      first
        | exact h
        | with_reducible apply sendAnswer_room
        | with_reducible apply setSession_room
        | split

theorem unpaidRun_room (p : PosIx) (fromState : Bool) (h : RoomOnly s₀ s) :
    RoomOnly s₀ (unpaidRun p fromState s) := by
  unfold unpaidRun
  repeat'
      first
        | exact h
        | with_reducible apply askHalt_room
        | with_reducible apply setVol_room
        | with_reducible apply raiseNotice_room
        | split

theorem pauseSession_room (p : PosIx) (h : RoomOnly s₀ s) :
    RoomOnly s₀ (pauseSession p s) := by
  unfold pauseSession
  repeat'
      first
        | exact h
        | with_reducible apply markChanged_room
        | with_reducible apply withdraw_room
        | with_reducible apply setSession_room

theorem resumeSession_room (p : PosIx) (h : RoomOnly s₀ s) :
    RoomOnly s₀ (resumeSession p s) := by
  unfold resumeSession
  repeat'
      first
        | exact h
        | with_reducible apply markChanged_room
        | with_reducible apply setSession_room

theorem loseCycle_room (p : PosIx) (h : RoomOnly s₀ s) :
    RoomOnly s₀ (loseCycle p s) := by
  unfold loseCycle
  repeat'
      first
        | exact h
        | with_reducible apply raiseNotice_room
        | with_reducible apply closeSession_room

theorem applyReport_room (p : PosIx) (ses : Session) (ms : MachineState) (h : RoomOnly s₀ s) :
    RoomOnly s₀ (applyReport p ses ms s) := by
  unfold applyReport
  repeat'
      first
        | exact h
        | with_reducible apply pauseSession_room
        | with_reducible apply resumeSession_room
        | with_reducible apply closeSession_room
        | with_reducible apply loseCycle_room
        | split

theorem clearMarks_room (p : PosIx) (ms : MachineState) (h : RoomOnly s₀ s) :
    RoomOnly s₀ (clearMarks p ms s) := by
  unfold clearMarks
  repeat'
      first
        | exact h
        | with_reducible apply setVol_room

theorem sessionTakesState_room (p : PosIx) (ms : MachineState) (h : RoomOnly s₀ s) :
    RoomOnly s₀ (sessionTakesState p ms s) := by
  unfold sessionTakesState
  repeat'
      first
        | exact h
        | with_reducible apply unpaidRun_room
        | with_reducible apply setSession_room
        | with_reducible apply applyReport_room
        | with_reducible apply clearMarks_room
        | split
        | dsimp only

theorem countMinute_room (p : PosIx) (h : RoomOnly s₀ s) :
    RoomOnly s₀ (countMinute p s) := by
  unfold countMinute
  repeat'
      first
        | exact h
        | with_reducible apply goEnding_room
        | with_reducible apply setSession_room
        | split
        | dsimp only

theorem tickSession_room (p : PosIx) (h : RoomOnly s₀ s) :
    RoomOnly s₀ (tickSession p s) := by
  unfold tickSession
  repeat'
      first
        | exact h
        | with_reducible apply setSession_room
        | split

/-! ## Faults -/

theorem setActive_room (p : PosIx) (code : Nat) (c : FaultClass) (h : RoomOnly s₀ s) :
    RoomOnly s₀ (setActive p code c s) := markChanged_room _ (withDisplay_room _ _ (fun _ => rfl) h)

theorem clearActive_room (p : PosIx) (h : RoomOnly s₀ s) : RoomOnly s₀ (clearActive p s) :=
  markChanged_room _ (withDisplay_room _ _ (fun _ => rfl) h)

theorem endByFault_room (p : PosIx) (code : Nat) (c : FaultClass) (h : RoomOnly s₀ s) :
    RoomOnly s₀ (endByFault p code c s).1 := by
  unfold endByFault
  split
  · exact h
  · split
    · exact cancelSession_room _ _ h
    all_goals exact closeSession_room _ _ h

theorem becomeActive_room (p : PosIx) (code : Nat) (c : FaultClass) (d : Option MissKind) (h : RoomOnly s₀ s) :
    RoomOnly s₀ (becomeActive p code c d s) := by
  unfold becomeActive
  repeat'
      first
        | exact h
        | with_reducible apply appendFault_room
        | with_reducible apply endByFault_room
        | with_reducible apply setActive_room

theorem makeSafe_room (p : PosIx) (h : RoomOnly s₀ s) :
    RoomOnly s₀ (makeSafe p s) := by
  unfold makeSafe
  repeat'
      first
        | exact h
        | with_reducible apply withdraw_room
        | with_reducible apply askHeatOff_room
        | with_reducible apply askHalt_room

theorem raiseFault_room (p : PosIx) (code : Nat) (d : Option MissKind) (h : RoomOnly s₀ s) :
    RoomOnly s₀ (raiseFault p code d s) := by
  unfold raiseFault
  generalize s.classOf code = c
  generalize (s.record p).fault = f
  dsimp only
  generalize c.severity = sv
  cases sv with
  | notice => exact raiseNotice_room _ _ _ h
  | lockout =>
    cases f with
    | none => exact becomeActive_room _ _ _ _ h
    | some f => exact appendFault_room _ _ _ _ _ h
  | safety =>
    cases f with
    | none => exact makeSafe_room _ (becomeActive_room _ _ _ _ h)
    | some f =>
      dsimp only
      generalize f.severity = sf
      cases sf with
      | safety => exact askHeatOff_room _ (askHalt_room _ (appendFault_room _ _ _ _ _ h))
      | notice => exact makeSafe_room _ (appendFault_room _ _ _ _ _ (setActive_room _ _ _ h))
      | lockout => exact makeSafe_room _ (appendFault_room _ _ _ _ _ (setActive_room _ _ _ h))

theorem faultTakesField_room (p : PosIx) (field : Nat) (ms : MachineState) (h : RoomOnly s₀ s) :
    RoomOnly s₀ (faultTakesField p field ms s) := by
  unfold faultTakesField
  repeat'
      first
        | exact h
        | with_reducible apply clearActive_room
        | with_reducible apply raiseFault_room
        | with_reducible apply setVol_room
        | split
        | dsimp only

theorem faultTakesClass_room (p : PosIx) (cls : MachineClass) (h : RoomOnly s₀ s) :
    RoomOnly s₀ (faultTakesClass p cls s) := by
  unfold faultTakesClass
  repeat'
      first
        | exact h
        | with_reducible apply raiseFault_room
        | with_reducible apply setVol_room
        | split

/-! ## Positions -/

theorem reportOutcome_room (p : PosIx) (o : Order) (out : OrderOutcome) (h : RoomOnly s₀ s) :
    RoomOnly s₀ (reportOutcome p o out s) := by
  unfold reportOutcome
  repeat'
      first
        | exact h
        | with_reducible apply startTaken_room
        | with_reducible apply unpaidRun_room
        | with_reducible apply cancelIfStarting_room
        | with_reducible apply extendTaken_room
        | with_reducible apply extensionFail_room
        | with_reducible apply heatOnRefused_room
        | with_reducible apply setVol_room
        | split

theorem confirmOrder_room (p : PosIx) (out : OrderOutcome) (h : RoomOnly s₀ s) :
    RoomOnly s₀ (confirmOrder p out s) := by
  unfold confirmOrder
  repeat'
      first
        | exact h
        | with_reducible apply serveOwed_room
        | with_reducible apply reportOutcome_room
        | with_reducible apply setVol_room
        | split

theorem testViolation_room (p : PosIx) (on : Bool) (h : RoomOnly s₀ s) :
    RoomOnly s₀ (testViolation p on s) := by
  unfold testViolation
  repeat'
      first
        | exact h
        | with_reducible apply raiseFault_room
        | with_reducible apply setVol_room
        | split
        | dsimp only

theorem finishRelease_room (p : PosIx) (r : Bool) (h : RoomOnly s₀ s) :
    RoomOnly s₀ (finishRelease p r s) := by
  unfold finishRelease
  repeat'
      first
        | exact h
        | with_reducible apply evaluate_room
        | with_reducible apply joinQueue_room
        | with_reducible apply activatePending_room
        | with_reducible apply endGrant_room
        | split

theorem heatTakesState_room (p : PosIx) (on r : Bool) (h : RoomOnly s₀ s) :
    RoomOnly s₀ (heatTakesState p on r s) := by
  have k : RoomOnly s₀ (if (testViolation p on s).releaseEnds p on then
      finishRelease p r (testViolation p on s) else testViolation p on s) := by
    split
    · exact finishRelease_room _ _ (testViolation_room _ _ h)
    · exact testViolation_room _ _ h
  have tail : ∀ (b : Bool) (a : State), RoomOnly s₀ a → RoomOnly s₀
      (if r then if b && a.mayQueue p then evaluate (joinQueue p a) else a else withdraw p a) := by
    intro b a ha
    split
    · split
      · exact evaluate_room (joinQueue_room _ ha)
      · exact ha
    · exact withdraw_room _ ha
  exact tail _ _ (setVol_room _ _ k)

theorem dispatchState_room (p : PosIx) (x : LastState) (h : RoomOnly s₀ s) :
    RoomOnly s₀ (dispatchState p x s) := by
  unfold dispatchState
  repeat'
      first
        | exact h
        | with_reducible apply heatTakesState_room
        | with_reducible apply sessionTakesState_room
        | with_reducible apply faultTakesField_room
        | with_reducible apply faultTakesClass_room
        | with_reducible apply setVol_room

theorem machineLost_room (p : PosIx) (k : MissKind) (h : RoomOnly s₀ s) :
    RoomOnly s₀ (machineLost p k s) := by
  unfold machineLost
  repeat'
      first
        | exact h
        | with_reducible apply withdraw_room
        | with_reducible apply cancelIfStarting_room
        | with_reducible apply raiseFault_room
        | with_reducible apply markChanged_room

theorem machinePresent_room (p : PosIx) (h : RoomOnly s₀ s) :
    RoomOnly s₀ (machinePresent p s) := by
  unfold machinePresent
  repeat'
      first
        | exact h
        | with_reducible apply clearActive_room
        | with_reducible apply askDisplay_room
        | with_reducible apply markChanged_room
        | split
        | dsimp only

end Sys2Proof.Machine
end

