-- ==== Sys2Proof/Laws/Requests.lean ====
section
/-! SUPPORT. What processing a request leaves of the gateway link and of the supply, and what a request does at a
link that is ready. -/

namespace Sys2Proof.Machine

/-- The parts of the state that the requests of the tables leave alone: the link and the supply. -/
structure LinkKept (s t : State) : Prop where
  link : t.link = s.link
  power : t.power = s.power
  pending : t.pending = s.pending

theorem RoomOnly.linkKept {s t : State} (h : RoomOnly s t) : LinkKept s t := ⟨h.link, h.power, h.pending⟩

theorem LinkKept.refl (s : State) : LinkKept s s := ⟨rfl, rfl, rfl⟩

theorem LinkKept.trans {s t u : State} (h : LinkKept s t) (k : LinkKept t u) : LinkKept s u :=
  ⟨k.link.trans h.link, k.power.trans h.power, k.pending.trans h.pending⟩

theorem LinkKept.room {s t u : State} (h : LinkKept s t) (k : RoomOnly t u) : LinkKept s u :=
  h.trans k.linkKept

theorem settleSlot_link (s : State) : LinkKept s (settleSlot s) := by
  unfold settleSlot
  split <;> exact ⟨rfl, rfl, rfl⟩

theorem checkJam_link (s : State) : LinkKept s (checkJam s) := by
  unfold checkJam
  split
  · exact ⟨rfl, rfl, rfl⟩
  · exact LinkKept.refl s

theorem setAllVol_link (f : PosIx → PosState → PosState) (s : State) : LinkKept s (s.setAllVol f) :=
  (RoomOnly.foldl (fun s p => s.setVol p (f p)) (fun p {_ _} h => setVol_room p _ h) _
    (RoomOnly.refl s)).linkKept

theorem withdrawDryers_room (k n : Nat) : ∀ (s : State), RoomOnly s (withdrawDryers k n s) := by
  induction k with
  | zero => exact fun s => RoomOnly.refl s
  | succ k ih =>
    intro s
    unfold withdrawDryers
    split
    · exact RoomOnly.refl s
    · split
      · exact RoomOnly.refl s
      · exact (withdraw_room _ (RoomOnly.refl s)).trans (ih _)

theorem applyBudget_room (n : Nat) (s : State) : RoomOnly s (applyBudget n s) := by
  unfold applyBudget
  split
  · exact evaluate_room (write_room _ (fun _ => ⟨rfl, rfl, rfl, rfl, rfl, rfl, rfl⟩) (RoomOnly.refl s))
  · dsimp only
    refine RoomOnly.trans ?_ (withdrawDryers_room _ _ _)
    exact write_room _ (fun _ => ⟨rfl, rfl, rfl, rfl, rfl, rfl, rfl⟩) (RoomOnly.refl s)

/-- What processing a request does to the link: STATUS clears the RESTARTED latch, RESTART stops processing, and
nothing else is touched (R177, R178). -/
def linkAfter (r : Request) (s : State) : LinkState :=
  match r with
  | .status => { s.link with restarted := false }
  | .restart => if s.openSessions = 0 then { s.link with restarting := true } else s.link
  | _ => s.link

theorem configureNew_link (p : PosIx) (cfg : PosConfig) (s : State) : LinkKept s (configureNew p cfg s) := by
  unfold configureNew
  dsimp only
  refine LinkKept.trans (LinkKept.trans ?_ (askHeatOff_room p (RoomOnly.refl _)).linkKept) (settleSlot_link _)
  exact ⟨rfl, rfl, rfl⟩

theorem removePosition_link (p : PosIx) (s : State) : LinkKept s (removePosition p s) := by
  unfold removePosition
  dsimp only
  refine LinkKept.trans ?_ (settleSlot_link _)
  exact ⟨rfl, rfl, rfl⟩

theorem configureAgain_link (p : PosIx) (old cfg : PosConfig) (s : State) :
    LinkKept s (configureAgain p old cfg s) := by
  unfold configureAgain
  dsimp only
  split <;> exact ⟨rfl, rfl, rfl⟩

theorem setService_link (p : PosIx) (b : Bool) (s : State) : LinkKept s (setService p b s) := by
  have h := withDisplay_room p (fun r => { r with oos := b }) (fun _ => rfl) (RoomOnly.refl s)
  unfold setService
  dsimp only
  split
  · exact h.linkKept
  · exact (markChanged_room p h).linkKept

theorem forceEndSession_room (p : PosIx) (pol : Policy) (s : State) :
    RoomOnly s (forceEndSession p pol s) := by
  unfold forceEndSession
  split
  · exact cancelSession_room _ _ (RoomOnly.refl s)
  · exact askHalt_room _ (closeSession_room _ _ (RoomOnly.refl s))

/-! ## Each request -/

theorem refuse_kept (st : Status) (s : State) : LinkKept s (refuse st s).state := LinkKept.refl s

theorem accept_kept {s t : State} (payload : List Byte) (h : LinkKept s t) :
    LinkKept s (accept payload t).state := h

theorem journalCard_kept (c : Card) (s : State) : LinkKept s (journalCard c s) :=
  (journalled_room _ (RoomOnly.refl s)).linkKept

theorem processSetClock_kept (minute : BitVec 16) (second : Byte) (s : State) :
    LinkKept s (processSetClock minute second s).state := by
  unfold processSetClock
  split
  · exact refuse_kept _ s
  · dsimp only
    split
    · have h := journalled_room { card := .rollover, settlement := none, session := .absent }
        (RoomOnly.refl { s with clock := { minute := minute.toNat, second := second.toNat, valid := true } })
      exact ⟨h.link, h.power, h.pending⟩
    · exact ⟨rfl, rfl, rfl⟩

theorem processSetConfig_kept (mask busRate jamLimit : BitVec 16)
    (lostLimit startLimit pauseLimit doneLimit heatSlice settleTime attnMask : Byte) (s : State) :
    LinkKept s (processSetConfig mask busRate jamLimit lostLimit startLimit pauseLimit doneLimit heatSlice
      settleTime attnMask s).state := by
  unfold processSetConfig accept
  dsimp only
  refine LinkKept.trans ?_ (checkJam_link _)
  exact ⟨rfl, rfl, rfl⟩

theorem processLoadMachine_kept (addr cls heater motor lo hi dflt : Byte) (s : State) :
    LinkKept s (processLoadMachine addr cls heater motor lo hi dflt s).state := by
  unfold processLoadMachine
  repeat' split
  all_goals
    first
      | with_reducible exact refuse_kept _ s
      | exact accept_kept _ (configureNew_link _ _ s)
      | exact accept_kept _ (configureAgain_link _ _ _ s)

theorem processRemoveMachine_kept (addr : Byte) (s : State) :
    LinkKept s (processRemoveMachine addr s).state := by
  unfold processRemoveMachine
  repeat' split
  all_goals
    first
      | with_reducible exact refuse_kept _ s
      | exact accept_kept _ (removePosition_link _ s)

theorem processService_kept (addr value : Byte) (s : State) :
    LinkKept s (processService addr value s).state := by
  unfold processService
  repeat' split
  all_goals
    first
      | with_reducible exact refuse_kept _ s
      | exact accept_kept _ (setService_link _ _ s)

theorem processReadMachines_kept (mode : Byte) (s : State) :
    LinkKept s (processReadMachines mode s).state := by
  unfold processReadMachines
  repeat' split
  all_goals
    first
      | with_reducible exact refuse_kept _ s
      | exact accept_kept _ (setAllVol_link _ s)

theorem settleTerm_kept (t : TermIx) (on : Bool) (f : TermState → TermState) (s : State) :
    LinkKept s (settleSlot ((s.setTerminal t on).setTerm t f)) := by
  refine LinkKept.trans ?_ (settleSlot_link _)
  exact ⟨rfl, rfl, rfl⟩

theorem dropTerm_kept (t : TermIx) (s : State) :
    LinkKept s (settleSlot
      (discardVisit (.terminal t) ((s.setTerminal t false).setTerm t fun _ => TermState.new))) := by
  refine LinkKept.trans ?_ (settleSlot_link _)
  exact ⟨rfl, rfl, rfl⟩

theorem processLoadTerminal_kept (addr : Byte) (s : State) :
    LinkKept s (processLoadTerminal addr s).state := by
  unfold processLoadTerminal
  repeat' split
  all_goals
    first
      | with_reducible exact refuse_kept _ s
      | exact accept_kept _ (LinkKept.refl s)
      | exact accept_kept _ (settleTerm_kept _ _ _ s)

theorem processRemoveTerminal_kept (addr : Byte) (s : State) :
    LinkKept s (processRemoveTerminal addr s).state := by
  unfold processRemoveTerminal
  repeat' split
  all_goals
    first
      | with_reducible exact refuse_kept _ s
      | exact accept_kept _ (dropTerm_kept _ s)

theorem processShowText_kept (addr : Byte) (text : List Byte) (s : State) :
    LinkKept s (processShowText addr text s).state := by
  unfold processShowText
  repeat' split
  all_goals
    first
      | with_reducible exact refuse_kept _ s
      | exact accept_kept _ ⟨rfl, rfl, rfl⟩

theorem processLoadPrice_kept (cls program : Byte) (base ph pc : BitVec 16) (n : Byte)
    (pairs : List (Byte × BitVec 16)) (s : State) :
    LinkKept s (processLoadPrice cls program base ph pc n pairs s).state := by
  unfold processLoadPrice
  repeat' split
  all_goals
    first
      | with_reducible exact refuse_kept _ s
      | exact accept_kept _ ⟨rfl, rfl, rfl⟩

theorem processRemovePrice_kept (cls program : Byte) (s : State) :
    LinkKept s (processRemovePrice cls program s).state := by
  unfold processRemovePrice
  repeat' split
  all_goals
    first
      | with_reducible exact refuse_kept _ s
      | exact accept_kept _ ⟨rfl, rfl, rfl⟩

theorem processLoadBands_kept (bands : List (BitVec 16 × Byte × Byte)) (s : State) :
    LinkKept s (processLoadBands bands s).state := by
  unfold processLoadBands
  repeat' split
  all_goals
    first
      | with_reducible exact refuse_kept _ s
      | exact accept_kept _ ⟨rfl, rfl, rfl⟩

theorem processAddCard_kept (id : CardId) (cls : Byte) (balance : BitVec 24) (discount : Byte)
    (limit : BitVec 16) (s : State) :
    LinkKept s (processAddCard id cls balance discount limit s).state := by
  unfold processAddCard
  dsimp only
  repeat' split
  all_goals
    first
      | with_reducible exact refuse_kept _ s
      | with_reducible exact accept_kept _ (journalCard_kept _ s)

theorem processCreditCard_kept (id : CardId) (amount : BitVec 24) (s : State) :
    LinkKept s (processCreditCard id amount s).state := by
  unfold processCreditCard
  repeat' split
  all_goals
    first
      | with_reducible exact refuse_kept _ s
      | with_reducible exact accept_kept _ (journalCard_kept _ s)

theorem processDebitCard_kept (id : CardId) (amount : BitVec 24) (s : State) :
    LinkKept s (processDebitCard id amount s).state := by
  unfold processDebitCard
  repeat' split
  all_goals
    first
      | with_reducible exact refuse_kept _ s
      | with_reducible exact accept_kept _ (journalCard_kept _ s)

theorem processSetCard_kept (id : CardId) (cls discount : Byte) (limit : BitVec 16) (s : State) :
    LinkKept s (processSetCard id cls discount limit s).state := by
  unfold processSetCard
  repeat' split
  all_goals
    first
      | with_reducible exact refuse_kept _ s
      | with_reducible exact accept_kept _ (journalCard_kept _ s)

theorem processCardState_kept (id : CardId) (st : CardState) (s : State) :
    LinkKept s (processCardState id st s).state := by
  unfold processCardState
  repeat' split
  all_goals
    first
      | with_reducible exact refuse_kept _ s
      | with_reducible exact accept_kept _ (journalCard_kept _ s)

theorem processReadCard_kept (id : CardId) (s : State) :
    LinkKept s (processReadCard id s).state := by
  unfold processReadCard
  repeat' split
  all_goals
    first
      | with_reducible exact refuse_kept _ s
      | exact accept_kept _ ⟨rfl, rfl, rfl⟩

theorem processRemoveCard_kept (id : CardId) (s : State) :
    LinkKept s (processRemoveCard id s).state := by
  unfold processRemoveCard
  repeat' split
  all_goals
    first
      | with_reducible exact refuse_kept _ s
      | with_reducible exact accept_kept _ (journalled_room _ (RoomOnly.refl s)).linkKept

theorem processSetBudget_kept (value : Byte) (s : State) :
    LinkKept s (processSetBudget value s).state := by
  unfold processSetBudget
  repeat' split
  all_goals
    first
      | with_reducible exact refuse_kept _ s
      | exact accept_kept _ ((applyBudget_room _ s).linkKept)

theorem processReleaseHeat_kept (addr : Byte) (s : State) :
    LinkKept s (processReleaseHeat addr s).state := by
  unfold processReleaseHeat
  repeat' split
  all_goals
    first
      | with_reducible exact refuse_kept _ s
      | exact accept_kept _ ((committedFell_room (endGrant_room _ (RoomOnly.refl s))).linkKept)

theorem processLoadFaultClass_kept (code severity policy auto : Byte) (s : State) :
    LinkKept s (processLoadFaultClass code severity policy auto s).state := by
  unfold processLoadFaultClass
  repeat' split
  all_goals
    first
      | with_reducible exact refuse_kept _ s
      | exact accept_kept _ ⟨rfl, rfl, rfl⟩

theorem processClearFault_kept (addr : Byte) (s : State) :
    LinkKept s (processClearFault addr s).state := by
  unfold processClearFault
  repeat' split
  all_goals
    first
      | with_reducible exact refuse_kept _ s
      | exact accept_kept _ ((clearActive_room _ (RoomOnly.refl s)).linkKept)

theorem processReleaseThrough_kept (k : BitVec 16) (s : State) :
    LinkKept s (processReleaseThrough k s).state := by
  unfold processReleaseThrough
  repeat' split
  all_goals
    first
      | with_reducible exact refuse_kept _ s
      | exact accept_kept _ ⟨rfl, rfl, rfl⟩

theorem processForceEnd_kept (addr policy : Byte) (s : State) :
    LinkKept s (processForceEnd addr policy s).state := by
  unfold processForceEnd
  repeat' split
  all_goals
    first
      | with_reducible exact refuse_kept _ s
      | exact accept_kept _ ((forceEndSession_room _ _ s).linkKept)

theorem processRestart_link (s : State) :
    (processRestart s).state.link = linkAfter .restart s ∧ (processRestart s).state.power = s.power
      ∧ (processRestart s).state.pending = s.pending := by
  unfold processRestart linkAfter
  split <;> exact ⟨rfl, rfl, rfl⟩

/-- Every request leaves the supply and the queue of commands alone, and the link but for its own two bits. -/
theorem process_keeps (r : Request) (s : State) :
    (process r s).state.link = linkAfter r s ∧ (process r s).state.power = s.power
      ∧ (process r s).state.pending = s.pending := by
  have fin : ∀ {t : State}, LinkKept s t → t.link = s.link ∧ t.power = s.power ∧ t.pending = s.pending :=
    fun h => ⟨h.link, h.power, h.pending⟩
  cases r with
  | status => exact ⟨rfl, rfl, rfl⟩
  | setConfig => exact fin (processSetConfig_kept ..)
  | restart => exact processRestart_link s
  | setClock => exact fin (processSetClock_kept ..)
  | loadMachine => exact fin (processLoadMachine_kept ..)
  | removeMachine => exact fin (processRemoveMachine_kept ..)
  | service => exact fin (processService_kept ..)
  | readMachines => exact fin (processReadMachines_kept ..)
  | loadTerminal => exact fin (processLoadTerminal_kept ..)
  | removeTerminal => exact fin (processRemoveTerminal_kept ..)
  | showText => exact fin (processShowText_kept ..)
  | loadPrice => exact fin (processLoadPrice_kept ..)
  | removePrice => exact fin (processRemovePrice_kept ..)
  | loadBands => exact fin (processLoadBands_kept ..)
  | addCard => exact fin (processAddCard_kept ..)
  | creditCard => exact fin (processCreditCard_kept ..)
  | debitCard => exact fin (processDebitCard_kept ..)
  | setCard => exact fin (processSetCard_kept ..)
  | blockCard => exact fin (processCardState_kept ..)
  | unblockCard => exact fin (processCardState_kept ..)
  | readCard => exact fin (processReadCard_kept ..)
  | removeCard => exact fin (processRemoveCard_kept ..)
  | setBudget => exact fin (processSetBudget_kept ..)
  | releaseHeat => exact fin (processReleaseHeat_kept ..)
  | loadFaultClass => exact fin (processLoadFaultClass_kept ..)
  | clearFault => exact fin (processClearFault_kept ..)
  | readFaults => exact ⟨rfl, rfl, rfl⟩
  | readSettlements => exact ⟨rfl, rfl, rfl⟩
  | releaseThrough => exact fin (processReleaseThrough_kept ..)
  | forceEnd => exact fin (processForceEnd_kept ..)
  | badFrame => exact ⟨rfl, rfl, rfl⟩

/-- A request frame that reaches a ready link is processed at once, and its reply joins the queue (R170,
R171, R173). -/
theorem takeRequestFrame_ready (w : Waiting) (s : State) (hb : s.link.buffer = [])
    (ht : s.link.transmit.length < Config.transmitCapacity) (hr : s.link.restarting = false)
    (hh : s.link.holding = false) (v : Verdict)
    (hv : v = process w.req { s with link := { s.link with buffer := [w] } }) :
    takeRequestFrame w s
      = { v.state with link := { v.state.link with buffer := [] } }.answered
          { type := w.type, tag := w.tag, status := v.status, payload := v.payload } := by
  have hk := (process_keeps w.req { s with link := { s.link with buffer := [w] } }).1
  have hold : v.state.link.holding = false := by
    rw [hv, hk]; unfold linkAfter; split <;> (try split) <;> exact hh
  have e1 : bufferRequest w s = { s with link := { s.link with buffer := [w] } } := by
    unfold bufferRequest
    simp [hb, Config.bufferCapacity, State.setLink]
  have hm : ({ s with link := { s.link with buffer := [w] } } : State).mayProcess = true := by
    simp [State.mayProcess, hr, ht]
  have e2 : takeRequestFrame w s = processHead { s with link := { s.link with buffer := [w] } } := by
    unfold takeRequestFrame processAll
    rw [e1]
    exact if_pos hm
  have e3 : takeRequestFrame w s = bufferEmptied (startFrame (placeReply
      { type := w.type, tag := w.tag, status := v.status, payload := v.payload } [] v.state)) := by
    rw [e2, hv]; rfl
  rw [e3]
  unfold bufferEmptied startFrame placeReply State.answered State.setLink
  cases hs : v.state.link.sending <;> cases hd : v.state.link.held <;> cases hf : v.state.link.flow <;>
    simp [hold, hs, hd, hf]

end Sys2Proof.Machine
end

