-- ==== Sys2Proof/Laws/Tables.lean ====
section
/-! SUPPORT. The card and price tables as finite maps: what a lookup gives after a record is put or dropped, and that
each keeps its canonical order. -/

namespace Sys2Proof.Machine

/-! ## The card table -/

/-- A lookup after a record is put: the record at its own id, and the old table at any other. -/
theorem find_putCard (c : Card) (cs : List Card) (id : CardId) :
    (putCard c cs).find? (fun x => x.id == id)
      = if c.id = id then some c else cs.find? (fun x => x.id == id) := by
  induction cs with
  | nil => by_cases h : c.id = id <;> simp [putCard, h]
  | cons x xs ih =>
    by_cases hc : c.id = id
    · rw [if_pos hc] at ih ⊢
      unfold putCard
      split
      · simp [hc]
      · rename_i hx
        split
        · simp [hc]
        · rw [List.find?_cons_of_neg (by simpa [← hc] using hx), ih]
    · rw [if_neg hc] at ih ⊢
      unfold putCard
      split
      · rename_i hx
        simp [hx, hc]
      · split
        · simp [List.find?_cons, hc]
        · simp [List.find?_cons, ih]

/-- A lookup after the records with an id are dropped. -/
theorem find_dropCard (gone : CardId) (cs : List Card) (id : CardId) :
    (dropCard gone cs).find? (fun x => x.id == id)
      = if gone = id then none else cs.find? (fun x => x.id == id) := by
  induction cs with
  | nil => simp [dropCard]
  | cons x xs ih =>
    simp only [dropCard, List.filter_cons] at ih ⊢
    by_cases hx : x.id = gone
    · by_cases hg : gone = id <;> simp_all
    · by_cases hg : gone = id
      · simp_all
      · by_cases hi : x.id = id <;> simp_all

/-- Every record of the table after a record is put is that record or was held before. -/
theorem mem_putCard {c x : Card} {cs : List Card} (h : x ∈ putCard c cs) : x = c ∨ x ∈ cs := by
  induction cs with
  | nil => simpa [putCard] using h
  | cons y ys ih =>
    unfold putCard at h
    split at h
    · rcases List.mem_cons.1 h with h | h <;> simp [h]
    · split at h
      · simpa using h
      · rcases List.mem_cons.1 h with h | h
        · simp [h]
        · rcases ih h with h | h <;> simp [h]

/-- A table that rises by id still does after a record is put. -/
theorem putCard_rising {c : Card} {cs : List Card} (h : cs.Pairwise fun a b => a.id.toNat < b.id.toNat) :
    (putCard c cs).Pairwise fun a b => a.id.toNat < b.id.toNat := by
  induction cs with
  | nil => simp [putCard]
  | cons x xs ih =>
    obtain ⟨hx, hxs⟩ := List.pairwise_cons.1 h
    unfold putCard
    split
    · rename_i he
      exact List.pairwise_cons.2 ⟨fun y hy => he ▸ hx y hy, hxs⟩
    · rename_i hne
      split
      · rename_i hlt
        refine List.pairwise_cons.2 ⟨fun y hy => ?_, h⟩
        rcases List.mem_cons.1 hy with rfl | hy
        · exact hlt
        · exact hlt.trans (hx y hy)
      · rename_i hge
        refine List.pairwise_cons.2 ⟨fun y hy => ?_, ih hxs⟩
        have hid : x.id.toNat ≠ c.id.toNat := fun e => hne (BitVec.eq_of_toNat_eq e)
        rcases mem_putCard hy with rfl | hy
        · omega
        · exact hx y hy

/-- A table that rises by id still does after a record is dropped. -/
theorem dropCard_rising {id : CardId} {cs : List Card} (h : cs.Pairwise fun a b => a.id.toNat < b.id.toNat) :
    (dropCard id cs).Pairwise fun a b => a.id.toNat < b.id.toNat := h.filter _

/-- Putting a record adds at most one. -/
theorem length_putCard (c : Card) (cs : List Card) : (putCard c cs).length ≤ cs.length + 1 := by
  induction cs with
  | nil => simp [putCard]
  | cons x xs ih =>
    unfold putCard
    split
    · simp
    · split
      · simp
      · simp; omega

/-! ## The price table -/

/-- A key is held by an entry exactly when both of its parts are the entry's. -/
theorem PriceEntry.hasKey_iff (e : PriceEntry) (cls : MachineClass) (program : Nat) :
    e.hasKey cls program = true ↔ e.cls = cls ∧ e.program = program := by
  simp [PriceEntry.hasKey]

/-- A lookup after an entry is put: the entry at its own key, and the old table at any other. -/
theorem findPrice_putPrice (e : PriceEntry) (es : List PriceEntry) (cls : MachineClass) (program : Nat) :
    findPrice cls program (putPrice e es)
      = if e.cls = cls ∧ e.program = program then some e else findPrice cls program es := by
  simp only [findPrice]
  induction es with
  | nil =>
    by_cases h : e.cls = cls ∧ e.program = program
    · simp [putPrice, PriceEntry.hasKey, h]
    · rw [if_neg h, putPrice, List.find?_cons_of_neg (by rwa [PriceEntry.hasKey_iff])]
  | cons x xs ih =>
    by_cases h : e.cls = cls ∧ e.program = program
    · rw [if_pos h] at ih ⊢
      obtain ⟨rfl, rfl⟩ := h
      unfold putPrice
      split
      · simp [PriceEntry.hasKey]
      · rename_i hx
        split
        · simp [PriceEntry.hasKey]
        · rw [List.find?_cons_of_neg (p := fun y : PriceEntry => y.hasKey e.cls e.program) hx, ih]
    · rw [if_neg h] at ih ⊢
      have he : ¬ e.hasKey cls program = true := by rwa [PriceEntry.hasKey_iff]
      unfold putPrice
      split
      · rename_i hx
        obtain ⟨h1, h2⟩ := (PriceEntry.hasKey_iff ..).1 hx
        have hx' : ¬ x.hasKey cls program = true := by rwa [PriceEntry.hasKey_iff, h1, h2]
        rw [List.find?_cons_of_neg (p := fun y : PriceEntry => y.hasKey cls program) he,
          List.find?_cons_of_neg (p := fun y : PriceEntry => y.hasKey cls program) hx']
      · split
        · rw [List.find?_cons_of_neg (p := fun y : PriceEntry => y.hasKey cls program) he]
        · simp [List.find?_cons, ih]

end Sys2Proof.Machine
end

