-- ==== Sys2Proof/Tests/Slice0.lean ====
section
/-! SUPPORT. Tests on fixed values: what WellFormed and the coded values refuse, the worked examples of the spec, and
for each statement with hypotheses a state and operands that meet them. Expected values are the spec's own or
computed by hand from its rules. -/

set_option Elab.async false

namespace Sys2Proof.Tests

open Sys2Proof Sys2Proof.Machine

/-! ## A small room -/

/-- The state after one command. -/
def after (i : Instr) (s : State) : State :=
  match exec i s with
  | .next t => t
  | .fault _ => s
  | .refused _ => s

/-- The state after some commands. -/
def run (is : List Instr) (s : State) : State := is.foldl (fun s i => after i s) s

/-- The status byte of the newest reply in the transmit queue. -/
def answer (s : State) : Option Status := s.link.transmit.getLast?.map (·.status)

/-- The payload of the newest reply in the transmit queue. -/
def block (s : State) : Option (List Byte) := s.link.transmit.getLast?.map (·.payload)

/-- An order that waits in a queue. -/
def order (body : OrderBody) : Order := { body := body, owned := true, tag := none }

/-- An order in delivery. -/
def sent (body : OrderBody) : Order := { body := body, owned := true, tag := some 5#4 }

/-- A washer position: heater demand 20, motor load 5. -/
def washer : PosConfig := { cls := .washer, heater := 20, motor := 5, limits := none }

/-- A dryer position: heater demand 20, motor load 3, purchases of 10 to 45 minutes, 30 by default. -/
def dryer : PosConfig :=
  { cls := .dryer, heater := 20, motor := 3, limits := some { minimum := 10, maximum := 45, dflt := 30 } }

/-- The volatile state of a machine that has been heard, is READY and has an empty queue. -/
def heardMachine (cls : MachineClass) : PosState :=
  { PosState.new with
    lastState := some
      { cls := cls, mstate := .ready, phase := .none, doorLocked := false, heaterOn := false,
        heatRequest := false, remaining := 0, fault := 0 }
    bus := { NodeBus.new with presence := .present, learned := true }
    armed := true }

/-- A card with 1,000 cu, of which some are held. -/
def card (id : CardId) (held : Nat) : Card :=
  { id := id, cls := .resident, state := .active, balance := 1000, held := held, discount := 0, limit := none,
    spent := 0 }

/-- The price of washer program 3 and of dryer program 1. -/
def prices : List PriceEntry :=
  [{ cls := .washer, program := 3, base := 350, ph := 0, pc := 0, n := 42, surcharges := [(.hot, 60), (.extraRinse, 40)] },
   { cls := .dryer, program := 1, base := 0, ph := 4, pc := 2, n := 0, surcharges := [] }]

/-- A room with a washer at address 1, a dryer at address 2, terminals 25 and 26, two cards and a budget of 100 LU. -/
def room : State :=
  { State.reset with
    ret := { State.reset.ret with
      positions := (State.reset.ret.positions.set 0 { PosRecord.empty with config := some washer }).set 1
        { PosRecord.empty with config := some dryer }
      terminals := (State.reset.ret.terminals.set 0 true).set 1 true
      cards := [card 10#64 0, card 11#64 0]
      prices := prices
      budget := 100 }
    pos := (State.reset.pos.set 0 (heardMachine .washer)).set 1 (heardMachine .dryer)
    bus := { BusState.new with listening := true }
    link := { State.reset.link with receiver := .hunting } }

/-- A running washer session of program 3, with EXTRA_RINSE and HOT at M 80: net 380 (R90). -/
def wash : Session :=
  { mclass := .washer, cclass := .resident, program := 3, options := 6#4, cardId := 10#64, term := 0, reqTag := 7#8,
    base := 350, ph := 0, pc := 0, surcharge := 100, n := 42, m := 80, d := 0, startMinute := none,
    state := .running, hold := 380, purchased := 0, ext := none, elapsed := 17, heated := 0, cool := 0, secs := 0,
    heatSecs := 0, startLimit := none, pauseLimit := none, doneLimit := none, holding := false,
    startReport := false, minuteDue := false }

/-- A running dryer session of 30 minutes at ph 4, pc 2, M 120, D 10: hold 130 (R93). -/
def dry : Session :=
  { wash with
    mclass := .dryer, program := 1, options := 0#4, cardId := 11#64, base := 0, ph := 4, pc := 2, surcharge := 0,
    n := 0, m := 120, d := 10, hold := 130, purchased := 30, elapsed := 0 }

/-- An open extension of 15 minutes, whose increment is 65 (R112). -/
def extension : Extension := { minutes := 15, hold := 65, term := 1, reqTag := 9#8, limit := some 15 }

/-- The room with the washer's session, its card's hold in place. -/
def withWash (ses : Session) (s : State) : State :=
  { s with ret := { s.ret with
    cards := s.ret.cards.map fun c => if c.id = ses.cardId then { c with held := ses.hold } else c
    sessions := s.ret.sessions.set 0 (some ses) } }

/-- The room with the dryer's session, its card's hold in place. -/
def withDry (ses : Session) (s : State) : State :=
  { s with ret := { s.ret with
    cards := s.ret.cards.map fun c => if c.id = ses.cardId then { c with held := ses.hold } else c
    sessions := s.ret.sessions.set 1 (some ses) } }

/-- The room with another link state. -/
def withLink (f : LinkState → LinkState) (s : State) : State := { s with link := f s.link }

/-- The room with another volatile state of one position. -/
def withVol (p : PosIx) (f : PosState → PosState) (s : State) : State :=
  { s with pos := s.pos.set p.val (f (s.vol p)) }

/-- The room with an active fault at a position. -/
def withFault (p : PosIx) (f : ActiveFault) (s : State) : State :=
  { s with ret := { s.ret with positions := s.ret.positions.set p.val { s.record p with fault := some f } } }

/-- Text as its characters' codes. -/
def bytes (ns : List Nat) : List Byte := ns.map (BitVec.ofNat 8)

/-! ## WellFormed refuses what no agent can send -/

theorem test_wf_showText_length :
    Request.wf (.showText 25#8 (List.replicate 246 65#8)) = true
      ∧ Request.wf (.showText 25#8 (List.replicate 247 65#8)) = false
      ∧ Instr.wf (.showText 1#8 25#8 (List.replicate 247 65#8)) = false := by decide +kernel

theorem test_wf_loadPrice_length :
    Request.wf (.loadPrice 1#8 3#8 350#16 0#16 0#16 42#8 (List.replicate 79 (0#8, 1#16))) = true
      ∧ Instr.wf (.loadPrice 1#8 1#8 3#8 350#16 0#16 0#16 42#8 (List.replicate 80 (0#8, 1#16))) = false := by
  decide +kernel

theorem test_wf_loadBands_length :
    Request.wf (.loadBands (List.replicate 61 (0#16, 100#8, 0#8))) = true
      ∧ Instr.wf (.loadBands 1#8 (List.replicate 62 (0#16, 100#8, 0#8))) = false := by decide +kernel

theorem test_wf_badFrame_is_no_request : Request.wf (.badFrame 9#8) = false := by decide +kernel

theorem test_wf_badFrame_row :
    Instr.wf (.badFrame 9#8 1#8 []) = true
      ∧ Instr.wf (.badFrame 9#8 1#8 (List.replicate 249 0#8)) = false
      ∧ Instr.wf (.badFrame 0x01#8 1#8 []) = false
      ∧ Instr.wf (.badFrame 0x01#8 1#8 [0#8]) = true := by decide +kernel

theorem test_wf_gatewayFrame_length :
    Instr.wf (.gatewayFrameReceived []) = false
      ∧ Instr.wf (.gatewayFrameReceived (List.replicate 4 (sentByte 1#8))) = false
      ∧ Instr.wf (.gatewayFrameReceived (sentByte 2#8 :: List.replicate 3 (sentByte 0#8))) = false
      ∧ Instr.wf (.gatewayFrameReceived (sentByte 2#8 :: List.replicate 4 (sentByte 0#8))) = true
      ∧ Instr.wf (.gatewayFrameReceived (sentByte 251#8 :: List.replicate 253 (sentByte 0#8))) = false := by
  decide +kernel

theorem test_wf_reply_characters :
    Instr.wf (.replyComplete []) = false ∧ Instr.wf (.replyComplete [0#11]) = false
      ∧ Instr.wf (.replyGap [0#11]) = false ∧ Instr.wf (.breakIndication [0#11]) = false
      ∧ Instr.wf (.replyGap [0x7FF#11]) = false
      ∧ Instr.wf (.gatewayFrameReceived (List.replicate 5 0x3FF#10)) = false
      ∧ Instr.wf (.replyComplete [0b01000000000#11]) = true := by decide +kernel

theorem test_wf_frameLength :
    Instr.wf (.frameLengthOutOfRange 1#8) = true ∧ Instr.wf (.frameLengthOutOfRange 2#8) = false
      ∧ Instr.wf (.frameLengthOutOfRange 250#8) = false ∧ Instr.wf (.frameLengthOutOfRange 251#8) = true := by
  decide +kernel

/-! ## Coded values (R194, R196, section 12-4) -/

theorem test_codes_out_of_range :
    Phase.ofCode 8#8 = none ∧ Policy.ofCode 3#8 = none ∧ MachineState.ofCode 5#8 = none
      ∧ MachineClass.ofCode 0#8 = none ∧ MachineClass.ofCode 3#8 = none ∧ CardClass.ofCode 3#8 = none
      ∧ Severity.ofCode 3#8 = none ∧ WashOption.ofCode 4#8 = none ∧ RefusalReason.ofCode 0#8 = none
      ∧ RefusalReason.ofCode 4#8 = none ∧ OrderOutcome.ofCodes 2#8 1#8 = none ∧ flagOfCode 2#8 = none := by
  decide +kernel

theorem test_codes_name_their_values :
    MachineClass.ofCode 1#8 = some .washer ∧ MachineClass.ofCode 2#8 = some .dryer
      ∧ Phase.ofCode 3#8 = some .heat ∧ Phase.ofCode 7#8 = some .cool
      ∧ MachineState.ofCode 1#8 = some .doorOpen ∧ MachineState.ofCode 4#8 = some .done
      ∧ Policy.ofCode 1#8 = some .unused ∧ Severity.ofCode 2#8 = some .safety
      ∧ RefusalReason.ofCode 3#8 = some .badProgram ∧ CardClass.ofCode 1#8 = some .staff := by decide +kernel

/-- R193: the CRC-16 of the text "123456789" is 0x29B1. -/
theorem test_crc_check_value : crc16 (bytes [0x31, 0x32, 0x33, 0x34, 0x35, 0x36, 0x37, 0x38, 0x39]) = 0x29B1#16 := by
  decide +kernel

/-! ## The worked examples of the spec -/

/-- Section 5-7, washer with two options: net 380, and 153 after 17 of 42 minutes. -/
theorem test_washer_example :
    washerPrice 350 100 80 0 = 380 ∧ washerPartial 380 17 42 = 153
      ∧ wash.net = 380 ∧ wash.unusedCharge = 153
      ∧ (prices.head?.map fun e => (optionsTaken e 7#4, surchargeSum e 6#4)) = some (6#4, 100) := by decide +kernel

/-- Section 5-7, rounding of the scaled price. -/
theorem test_rounding_example :
    washerPrice 345 0 110 0 = 380 ∧ washerPrice 350 75 100 15 = 362 := by decide +kernel

/-- Section 5-7, dryer hold, charge and top-up. -/
theorem test_dryer_example :
    dryerHold 120 10 4 45 = 195 ∧ dryerCharge 120 10 4 2 31 14 = 164 ∧ dryerHold 120 10 4 30 = 130
      ∧ topupMinutes dryer.purchase 30 20 = 15 ∧ topupMinutes dryer.purchase 45 20 = 0 := by decide +kernel

/-- Section 5-7, the largest discount: f(9) = f(10) = 1. -/
theorem test_largest_discount_example : dryerPrice 100 90 9 = 1 ∧ dryerPrice 100 90 10 = 1 := by decide +kernel

/-- Section 5-2, band selection: the band in force wraps from the end of the week to its begin. -/
theorem test_band_example :
    let bands : List Band :=
      [{ start := 360, multiplier := 100, closed := false }, { start := 8880, multiplier := 100, closed := true },
       { start := 9120, multiplier := 80, closed := false }, { start := 9960, multiplier := 90, closed := false }]
    (bandInForce bands 100).map (·.start) = some 9960 ∧ (bandInForce bands 360).map (·.start) = some 360
      ∧ (bandInForce bands 8879).map (·.start) = some 360 ∧ (bandInForce bands 8880).map (·.closed) = some true
      ∧ (bandInForce bands 10079).map (·.multiplier) = some 90 := by decide +kernel

/-- A position after HALT or HEAT_OFF was asked for with some queue. -/
def asking (ask : PosIx → State → State) (p : PosIx) (q : List Order) (s : State) : PosState :=
  (ask p (withVol p (fun v => { v with orders := q }) s)).vol p

/-- Section 2-6, the first two rows of the coalescing table. -/
theorem test_coalescing_cancels :
    (asking askHalt 0 [sent .finish, order .heatOn, order (.extend 5)] room).orders = [sent .finish, order .halt]
      ∧ Urgent.halt.step [sent .finish, order .heatOn, order (.extend 5)]
        = { orders := [sent .finish, order (.extend 5)], removed := some (order .heatOn), finished := false }
      ∧ (asking askHeatOff 0 [order .halt, order .heatOn] room).orders = [order .halt]
      ∧ Urgent.heatOff.step [order .halt, order .heatOn]
        = { orders := [order .halt], removed := some (order .heatOn), finished := true } := by decide +kernel

/-- Section 2-6, the third and fourth rows: HEAT_OFF goes behind the order in delivery and a HALT, and displaces. -/
theorem test_coalescing_places :
    (asking askHeatOff 0 [sent .heatOn, order .enable] room).orders = [sent .heatOn, order .heatOff, order .enable]
      ∧ (let v := asking askHeatOff 0 [sent (.start 1 0#4 0), order .halt, order .finish, order .disable] room
        v.orders = [sent (.start 1 0#4 0), order .halt, order .heatOff, order .finish] ∧ v.owed = true)
      ∧ queueDisplay .disable [sent .heatOff, order .halt, order .heatOff]
        = ([sent .heatOff, order .halt, order .heatOff, order .disable], false) := by decide +kernel

/-- R35: the owner of a removed EXTEND hears of it before HALT or HEAT_OFF goes on. Its failing extension (R114) sends
the dryer to ENDING and asks for END (R110), and that END is in the queue for the rest of the steps (R37, R40). -/
theorem test_report_before_the_order_goes_on :
    let s := withDry { dry with holding := true, ext := some extension } room
    let halted := asking askHalt 1 [sent .heatOn, order (.extend 15), order .disable] s
    let off := asking askHeatOff 1 [sent .heatOn, order .halt, order .disable, order (.extend 15)] s
    halted.orders = [sent .heatOn, order .halt, order .disable]
      ∧ off.orders = [sent .heatOn, order .halt, order .heatOff, order .disable]
      ∧ ∀ f ∈ [askHalt, askHeatOff],
        ((f 1 (withVol 1 (fun v => { v with
            orders := [sent .heatOn, order .halt, order .disable, order (.extend 15)] }) s)).session 1).map
          (fun ses => (ses.state, ses.ext)) = some (.ending, none) := by decide +kernel

/-- Section 12-2, one CARD on the wire. -/
theorem test_card_on_the_wire :
    let payload := bytes [0x03, 0x28, 0, 0, 0, 0x1A, 0x2B, 0x3C, 0x4D, 0x5E, 0x04, 0x03, 0x06, 0x00]
    let chars := replyChars (.terminal 1) 0x13#8 payload
    chars.length = 19 ∧ chars.head?.map (·.data) = some 0x9A#8 ∧ (chars[2]?).map (·.data) = some 14#8
      ∧ classify (.terminal 1) chars false false = some (.card 3#4
          { reqTag := 40#8, cardId := 0x1A2B3C4D5E#64, position := 4#8, program := 3#8, options := 6#4,
            minutes := 0#8 }) := by decide +kernel

/-- R1: the address character of terminal 26 in direction 1, 0x9A, position by position, low bit first behind the
start bit; the same with its stop position at space; and a break, after which nothing is taken. -/
theorem test_character_positions :
    charTime { data := 0x9A#8, mark := true, framing := false } = 0b1_1_10011010_0#11
      ∧ byteTime { data := 0xC5#8, framing := false } = 0b1_11000101_0#10
      ∧ lineBytes [0b1_11000101_0#10, 0b0_00000001_0#10]
        = [{ data := 0xC5#8, framing := false }, { data := 1#8, framing := true }]
      ∧ busChars [0b1_1_10011010_0#11, 0b0_0_00000001_0#11, 0b0_1_00000000_0#11]
        = ([{ data := 0x9A#8, mark := true, framing := false }, { data := 1#8, mark := false, framing := true },
            { data := 0#8, mark := true, framing := true }], false)
      ∧ busChars [0b1_1_10011010_0#11, 0#11, 0b1_0_00000001_0#11]
        = ([{ data := 0x9A#8, mark := true, framing := false }], true) := by decide +kernel

/-- The error set of a reply finds a damaged CRC, a foreign address and a mark bit inside (R6). -/
theorem test_reply_errors :
    let chars := replyChars (.terminal 1) 0x12#8 [7#8]
    classify (.terminal 1) chars false false = some (.nil 7#4)
      ∧ classify (.terminal 0) chars false false = none ∧ classify (.machine 0) chars false false = none
      ∧ classify (.terminal 1) chars true false = none
      ∧ classify (.terminal 1) (chars.take 5 ++ [{ data := 0#8, mark := false, framing := false }]) false false
        = none := by decide +kernel

/-- R195: "Dry 2." packs as 5, 19, 26 and 1, 30, 38. -/
theorem test_packed_text :
    packText (bytes [0x44, 0x72, 0x79, 0x20, 0x32, 0x2E])
      = num2 (5 * 1600 + 19 * 40 + 26) ++ num2 (1 * 1600 + 30 * 40 + 38) := by decide +kernel

/-- Fault records with numbers from 201; two of the first 15 are NOTICE. -/
def storm : List FaultRecord :=
  (List.range 32).map fun i =>
    { number := 201 + i, code := 16, position := some 11
      severity := if i = 2 ∨ i = 14 then .notice else .lockout
      minute := none, settlement := none, detail := none }

/-- Section 8-6, overflow during a storm. -/
theorem test_overflow_example :
    let s0 : State := { room with ret := { room.ret with faults := storm, nextFault := 233 } }
    let s1 := appendFault 18 (some 11) .lockout none none s0
    let s2 := appendFault 22 none .notice none none s1
    let s3 := appendFault 16 (some 11) .lockout none none s2
    let numbers (s : State) := s.ret.faults.map (·.number)
    203 ∉ numbers s1 ∧ 215 ∉ numbers s2 ∧ 234 ∈ numbers s2 ∧ 234 ∉ numbers s3
      ∧ s3.ret.faults.length = 32 ∧ s3.ret.overflow = true
      ∧ ((after (.readFaults 1#8) s3).ret.faults.map (·.number)).take 2 = [210, 211]
      ∧ (after (.readFaults 1#8) s3).ret.overflow = false := by decide +kernel

/-- Section 9-4, a collection across the wrap: 65,529 to 65,534, 1, 2, 3. -/
theorem test_release_across_the_wrap :
    let record (n : Nat) : Settlement := wash.settlement 0 (.plain .completed) n
    let s : State := { room with ret := { room.ret with
      settlements := [65529, 65530, 65531, 65532, 65533, 65534, 1, 2, 3].map record
      nextSettlement := 4 } }
    let t := after (.releaseThrough 1#8 2#16) s
    t.ret.settlements.map (·.number) = [3] ∧ block t = some [1#8]
      ∧ answer (after (.releaseThrough 2#8 2#16) t) = some .notFound := by decide +kernel

/-- Section 11-4, power lost during a capture: washer 2's close is in the journal, and the start settles the rest. -/
theorem test_warm_start_example :
    let named (id : CardId) (balance held : Nat) : Card := { card id held with balance := balance }
    let s : State := { room with ret := { room.ret with
      positions := (room.ret.positions.set 0 { PosRecord.empty with config := some washer }).set 1
        { PosRecord.empty with config := some dryer }
      cards := [named 1#64 1000 380, named 2#64 600 195, named 4#64 920 300]
      budget := 80
      pendingBudget := some 40
      nextSettlement := 57
      sessions := ((room.ret.sessions.set 3 (some { wash with cardId := 1#64 })).set 8
          (some { dry with
            cardId := 2#64, state := .paused, hold := 195, purchased := 45, heated := 20, cool := 5,
            elapsed := 25 })).set 0
        (some { wash with cardId := 4#64, hold := 300, base := 300, surcharge := 0, m := 100 }) } }
    let cut := after (.vddFall 4 true) (closeSession 0 (.plain .completed) { s with trail := [] })
    let t := after (.powerUp false false) cut
    t.ret.cards.map (fun c => (c.balance, c.held, c.spent)) = [(847, 0, 153), (502, 0, 98), (620, 0, 300)]
      ∧ t.ret.settlements.map (fun r => (r.number, r.charged)) = [(57, 300), (58, 153), (59, 98)]
      ∧ t.ret.budget = 40 ∧ t.ret.nextSettlement = 60 ∧ t.link.cause = .warmStart := by decide +kernel

/-- R65: a valid clock that is set back across midnight clears spent today; the first setting does not. -/
theorem test_clock_set_across_a_day :
    let s : State := { room with
      clock := { minute := 1430, second := 20, valid := true }
      ret := { room.ret with cards := [{ card 10#64 0 with spent := 600 }] } }
    (after (.setClock 1#8 1440#16 0#8) s).ret.cards.map (·.spent) = [0]
      ∧ (after (.setClock 1#8 1439#16 59#8) s).ret.cards.map (·.spent) = [600]
      ∧ (after (.setClock 1#8 1440#16 0#8) { s with clock := { s.clock with valid := false } }).ret.cards.map (·.spent)
        = [600] := by decide +kernel

/-- R12, R13: with machines and terminals the slots go machine, machine, terminal. -/
theorem test_visit_order :
    let next (s : State) : State := after .replyWindowClose (run [.visit, .frameSent] s)
    let node (s : State) := (after .visit s).bus.visit.map (·.node)
    node room = some (.machine 0) ∧ node (next room) = some (.machine 1)
      ∧ node (next (next room)) = some (.terminal 0) ∧ node (next (next (next room))) = some (.machine 0) := by
  decide +kernel

/-- Section 6-2: a card request for the washer at terminal 25 opens a session with the hold of R90, and the
machine's TAKEN makes it RUNNING. -/
theorem test_sale :
    let r : CardRequest :=
      { reqTag := 40#8, cardId := 10#64, position := 1#8, program := 3#8, options := 7#4, minutes := 0#8 }
    let s := takeCard 0 r { room with
      ret := { room.ret with bands := [{ start := 0, multiplier := 80, closed := false }] }
      clock := { minute := 1000, second := 0, valid := true } }
    let t := confirmOrder 0 .taken s
    (s.session 0).map (fun x => (x.state, x.hold, x.options)) = some (.starting, 380, 6#4)
      ∧ s.available 10#64 = some 620 ∧ (s.vol 0).orders = [order (.start 3 6#4 0)]
      ∧ (s.terminal 0).request = some 40#8
      ∧ (t.session 0).map (fun x => (x.state, x.startReport)) = some (.running, true)
      ∧ (t.terminal 0).outbox.length = 1 := by decide +kernel

/-- R99: each check declines with its own reason, in order. -/
theorem test_authorization_order :
    let r : CardRequest :=
      { reqTag := 40#8, cardId := 10#64, position := 1#8, program := 3#8, options := 0#4, minutes := 0#8 }
    let why (p : PosIx) (r : CardRequest) (s : State) : Option DeclineReason :=
      match authorize p 0 r s with
      | .error w => some w
      | .ok _ => none
    let withCard (f : Card → Card) : State := { room with ret := { room.ret with cards := room.ret.cards.map f } }
    why 5 r room = some .noSuchMachine ∧ why 0 { r with cardId := 12#64 } room = some .unknownCard
      ∧ why 0 r (withCard fun c => { c with state := .blocked }) = some .cardBlocked
      ∧ why 0 r (withVol 0 (fun v => { v with bus := NodeBus.new }) room) = some .machineUnavailable
      ∧ why 0 r (withWash wash room) = some .machineBusy ∧ why 0 { r with program := 4#8 } room = some .noSuchProgram
      ∧ why 0 r (withVol 0 (fun v => { v with lastState := none }) room) = some .machineNotReady
      ∧ why 0 r { room with ret := { room.ret with budget := 4 } } = some .roomAtCapacity
      ∧ why 0 r (withCard fun c => { c with balance := 349 }) = some .insufficientFunds
      ∧ why 0 r (withCard fun c => { c with limit := some 349 }) = some .dailyLimit ∧ why 0 r room = none := by
  decide +kernel

/-- R112, R95: the dryer's own card tops it up by at most the room left, held at the increment; then no more. -/
theorem test_topup :
    let r : CardRequest :=
      { reqTag := 41#8, cardId := 11#64, position := 2#8, program := 1#8, options := 0#4, minutes := 20#8 }
    let s := takeRequest 1 1 r (withDry dry room)
    (s.session 1).map (fun x => (x.hold, x.ext.map (·.minutes))) = some (195, some 15)
      ∧ s.available 11#64 = some 805 ∧ (s.vol 1).orders = [order (.extend 15)]
      ∧ ((confirmOrder 1 .taken s).session 1).map (fun x => (x.purchased, x.ext)) = some (45, none) := by
  decide +kernel

/-- R127, R134, R120: a waiting position is granted while it fits, and not while SAG is asserted. -/
theorem test_granting :
    let s : State := withVol 1 (fun v => { v with grant := .queued }) (withDry dry { room with
      heat := { HeatState.new with queue := [1] } })
    ((evaluate s).vol 1).grant = .granted ∧ (evaluate s).committed = 23
      ∧ ((evaluate s).vol 1).slice = some 360
      ∧ ((evaluate { s with heat := { s.heat with sag := .asserted } }).vol 1).grant = .queued
      ∧ ((evaluate { s with ret := { s.ret with budget := 22 } }).vol 1).grant = .queued := by decide +kernel

/-- R179, R180: after a cold start RESTARTED and FAULTS_WAITING are present and ATTN_N is asserted. -/
theorem test_attention_after_reset :
    State.reset.attention = true ∧ State.reset.highestCause = some .faultsWaiting
      ∧ block (after (.status 1#8) State.reset)
        = some (bytes [4, 0x48, 0, 0, 0, 0, 0, 0, 0xFF, 0, 0, 0, 1]) := by decide +kernel

/-- R9: a stretch of space that reaches the jam limit jams the bus once. -/
theorem test_jam :
    let s := after (.busJammed 500) room
    s.bus.jammed = true ∧ s.ret.faults.map (·.code) = [24, 22]
      ∧ (after (.busJammed 499) room).bus.jammed = false ∧ (after .jamEnd s).bus.jammed = false := by decide +kernel

/-- R21, R48: the fourth miss makes a node LOST. -/
theorem test_lost :
    let miss (s : State) : State := missNode (.machine 0) .silent s
    ((miss (miss (miss room))).vol 0).bus.presence = .present
      ∧ ((miss (miss (miss (miss room)))).vol 0).bus.presence = .lost
      ∧ (((miss (miss (miss (miss room)))).record 0).fault).map (·.code) = some 16 := by decide +kernel

/-- decodeTableWord: no row of the table has bits. -/
theorem test_no_row_has_bits : decodeTableWord 8 1 = none ∧ State.reset.withFetchWord 8 1 = State.reset := by
  exact ⟨rfl, rfl⟩

/-! ## States that meet the hypotheses of the statements -/

/-- A reply frame that waits to be sent. -/
def frame : ReplyFrame := { type := 0x37#8, tag := 1#8, status := .ok, payload := [] }

/-- The reply of a RESTART that was carried out. -/
def restartReply : ReplyFrame := { type := 0x7F#8, tag := 1#8, status := .ok, payload := [] }

/-- A request that waits in the request buffer. -/
def waiting : Waiting := { type := 0x01#8, tag := 2#8, req := .status }

/-- The room with a visit to a node in progress. -/
def visiting (node : Node) (phase : VisitPhase) (s : State) : State :=
  { s with bus := { s.bus with
    visit := some
      { node := node, tag := none, frame := (askFrame node).map charTime, rate := .r19200, phase := phase,
        removed := false } } }

/-- The room with a HEAT_ON granted to the dryer, which runs. -/
def heating : State :=
  withVol 1 (fun v => { v with grant := .granted, slice := some 360 })
    (withDry dry { room with heat := { HeatState.new with order := [1] } })

/-- The room where the dryer's grant is RELEASING. -/
def releasing : State :=
  withVol 1 (fun v => { v with grant := .releasing, orders := [sent .heatOff] }) (withDry dry room)

/-- Nothing stands in the settlement queue, so the next number is free. -/
theorem numberFree_of_empty (s : State) (h : s.ret.settlements = []) : NumberFree s := by
  intro x hx
  simp [h] at hx

theorem test_witness_StepRunsFrontCommand : State.reset.pending = [] := by decide +kernel

theorem test_witness_RequestAnsweredAtOnce :
    Request.wf (.showText 25#8 (List.replicate 246 65#8)) = true ∧ LinkReady State.reset ∧ LinkReady room
      ∧ LinkReady (withLink (fun l => { l with transmit := [frame, frame, frame] }) room) := by decide +kernel

theorem test_witness_RequestWaitsInBuffer :
    let full := withLink (fun l => { l with transmit := [frame, frame, frame, frame], sending := true }) room
    let stopped := withLink (fun l => { l with restarting := true }) room
    Request.wf .status = true ∧ full.live = true ∧ stopped.live = true
      ∧ Config.transmitCapacity ≤ full.link.transmit.length ∧ stopped.link.restarting = true
      ∧ full.link.buffer = [] ∧ (withLink (fun l => { l with buffer := [waiting] }) full).link.buffer = [waiting]
      ∧ 2 ≤ (withLink (fun l => { l with buffer := [waiting, waiting] }) full).link.buffer.length := by
  decide +kernel

theorem test_witness_ReceivedFrameIsItsRequest :
    Request.wf .status = true ∧ Request.wf (.showText 25#8 (List.replicate 246 65#8)) = true
      ∧ room.live = true ∧ room.link.receiver = .hunting
      ∧ completeFrame (lineBytes (Request.line 1#8 (.showText 25#8 (List.replicate 46 65#8)))) = true
      ∧ answer (after (.gatewayFrameReceived (Request.line 1#8 .status)) room) = some .ok := by decide +kernel

theorem test_witness_FaultyFrameDiscarded :
    let good := Request.line 1#8 .status
    let wrong := lineBytes (good.dropLast ++ [sentByte 0#8])
    let broken := lineBytes (good.dropLast ++ good.getLast?.toList.map fun b => b.setWidth 9 |>.setWidth 10)
    room.live = true ∧ room.link.receiver = .hunting
      ∧ completeFrame wrong = true
      ∧ word16 (crc16 ((wrong.map (·.data)).take (wrong.length - 2)))
        ≠ (wrong.map (·.data)).drop (wrong.length - 2)
      ∧ completeFrame broken = true ∧ broken.any (·.framing) = true
      ∧ (1#8).toNat < 2 ∧ 250 < (251#8).toNat
      ∧ (withLink (fun l => { l with receiver := .assembling wrong }) room).link.receiver = .assembling wrong := by
  decide +kernel

theorem test_witness_GatewayLineRows :
    let asking := withLink (fun l => { l with flow := some .hold, transmit := [frame], held := true }) room
    room.live = true ∧ room.link.receiver = .hunting ∧ State.reset.live = true
      ∧ State.reset.link.receiver = .ignoring ∧ asking.live = true ∧ asking.link.flow = some .hold
      ∧ asking.link.sending = false ∧ asking.link.receiver ≠ .ignoring := by decide +kernel

theorem test_witness_SentReplyLeavesQueue :
    let one := withLink (fun l => { l with transmit := [frame], sending := true }) room
    let refusal := withLink
      (fun l => { l with transmit := [{ restartReply with status := .inUse }], sending := true }) room
    let four := withLink (fun l => { l with
      transmit := [frame, frame, frame, frame], sending := true, buffer := [waiting], holding := true }) room
    one.live = true ∧ one.link.sending = true ∧ one.link.transmit = [frame] ∧ frame.type ≠ 0x7F#8
      ∧ one.link.buffer = [] ∧ refusal.link.transmit = [{ restartReply with status := .inUse }]
      ∧ four.live = true ∧ four.link.sending = true ∧ four.link.transmit = frame :: [frame, frame, frame]
      ∧ four.link.buffer = [waiting] ∧ four.link.restarting = false
      ∧ [frame, frame, frame].length < Config.transmitCapacity := by decide +kernel

theorem test_witness_BadFrameAnswered_unknown_type :
    ∀ r : Request, Request.wf r = true → Request.type r ≠ 0x04#8 := by
  intro r h
  cases r <;> simp_all [Request.type, Request.wf]

theorem test_witness_BadFrameAnswered :
    LinkReady room ∧ parseRequest 0x04#8 [] = .badFrame 0x04#8
      ∧ parseRequest 0x01#8 [0#8] = .badFrame 0x01#8 := by decide +kernel

theorem test_witness_StatusReportsAndClearsLatch : LinkReady room ∧ room.link.restarted = true := by
  decide +kernel

theorem test_witness_SetConfigChangesConfiguration :
    let s : State := { room with bus := { room.bus with listening := false, space := some 100 } }
    LinkReady s
      ∧ (after (.setConfig 1#8 2#16 0#16 199#16 0#8 0#8 0#8 0#8 0#8 0#8 0#8) s).bus.jammed = true
      ∧ (after (.setConfig 1#8 2#16 0#16 200#16 0#8 0#8 0#8 0#8 0#8 0#8 0#8) s).bus.jammed = false := by
  decide +kernel

theorem test_witness_SetConfigClampsValues :
    clamp 5 60 4 = 5 ∧ clamp 5 60 5 = 5 ∧ clamp 5 60 60 = 60 ∧ clamp 5 60 61 = 60
      ∧ BusRate.nearest 144 = .r9600 ∧ BusRate.nearest 145 = .r19200 ∧ BusRate.nearest 288 = .r19200
      ∧ BusRate.nearest 480 = .r38400 ∧ BusRate.nearest 481 = .r57600
      ∧ clampJam 99 = 100 ∧ clampJam 199 = 100 ∧ clampJam 2500 = 2500 ∧ clampJam 2501 = 2500 := by decide +kernel

theorem test_witness_RestartStopsProcessing :
    LinkReady (withWash wash room) ∧ (∃ p, ((withWash wash room).session p).isSome = true)
      ∧ LinkReady room ∧ ∀ p, room.session p = none := by decide +kernel

theorem test_witness_SetClockSetsAndRollsOver :
    let s : State := { room with clock := { minute := 1439, second := 59, valid := true } }
    LinkReady s ∧ 10079 < (10080#16).toNat ∧ 59 < (60#8).toNat ∧ (10079#16).toNat ≤ 10079 ∧ (59#8).toNat ≤ 59
      ∧ s.clock.valid = true ∧ (1440#16).toNat / 1440 ≠ s.clock.minute / 1440 := by decide +kernel

/-- R24, R83: the limits of the fields, on both sides. -/
theorem test_witness_TableLoadTests :
    machineConfig 2#8 63#8 15#8 5#8 120#8 5#8
        = some { cls := .dryer, heater := 63, motor := 15,
                 limits := some { minimum := 5, maximum := 120, dflt := 5 } }
      ∧ machineConfig 1#8 20#8 5#8 0#8 0#8 0#8 = some washer
      ∧ machineConfig 2#8 64#8 0#8 10#8 45#8 30#8 = none ∧ machineConfig 2#8 0#8 16#8 10#8 45#8 30#8 = none
      ∧ machineConfig 2#8 0#8 0#8 4#8 45#8 30#8 = none ∧ machineConfig 2#8 0#8 0#8 10#8 45#8 46#8 = none
      ∧ (priceEntry 1#8 15#8 5000#16 0#16 0#16 180#8 [(3#8, 1000#16)]).isSome = true
      ∧ priceEntry 1#8 16#8 5000#16 0#16 0#16 180#8 [] = none
      ∧ priceEntry 2#8 1#8 0#16 1#16 2#16 0#8 [] = none
      ∧ priceEntry 1#8 1#8 0#16 0#16 0#16 10#8 [(1#8, 1#16), (1#8, 2#16)] = none := by decide +kernel

theorem test_witness_LoadMachineConfigures :
    LinkReady room ∧ posOf 0#8 = none ∧ posOf 25#8 = none ∧ posOf 24#8 = some 23 ∧ posOf 1#8 = some 0
      ∧ machineConfig 1#8 20#8 5#8 0#8 0#8 0#8 = some washer ∧ (room.record 23).config = none
      ∧ (room.record 0).config = some washer ∧ room.session 0 = none ∧ (room.vol 0).grant = .none
      ∧ LinkReady (withWash wash room) ∧ ((withWash wash room).session 0).isSome = true
      ∧ LinkReady releasing ∧ (releasing.vol 1).grant ≠ .none := by decide +kernel

theorem test_witness_RemoveMachineDiscards :
    LinkReady room ∧ posOf 25#8 = none ∧ room.configured 23 = false ∧ room.configured 0 = true
      ∧ room.session 0 = none ∧ (room.vol 0).grant = .none ∧ (releasing.vol 1).grant ≠ .none
      ∧ posOf 2#8 = some 1 ∧ releasing.configured 1 = true := by decide +kernel

theorem test_witness_ServiceSetsOutOfService :
    LinkReady room ∧ posOf 1#8 = some 0 ∧ room.configured 0 = true ∧ 1 < (2#8).toNat ∧ (1#8).toNat ≤ 1
      ∧ room.session 0 = none ∧ LinkReady (withWash wash room) ∧ ((withWash wash room).session 0).isSome = true
      ∧ (room.record 0).fault = none ∧ (room.record 0).oos ≠ true := by decide +kernel

theorem test_witness_ReadMachinesClearsFlags :
    LinkReady room ∧ 1 < (2#8).toNat ∧ (1#8).toNat ≤ 1 := by decide +kernel

theorem test_witness_TerminalsLoadedAndRemoved :
    let asked : State := { room with term := room.term.set 1 { TermState.new with request := some 3#8 } }
    LinkReady room ∧ termOf 24#8 = none ∧ termOf 29#8 = none ∧ termOf 25#8 = some 0 ∧ termOf 28#8 = some 3
      ∧ room.termConfigured 0 = true ∧ room.termConfigured 3 = false ∧ (room.terminal 0).request = none
      ∧ LinkReady asked ∧ termOf 26#8 = some 1 ∧ asked.termConfigured 1 = true
      ∧ (asked.terminal 1).request.isSome = true := by decide +kernel

theorem test_witness_ShowTextQueuesText :
    let text : Item := { body := .text [], tag := none }
    let full : State := { room with term := room.term.set 0 { TermState.new with outbox := [text, text, text, text] } }
    let lost : State := { room with
      term := room.term.set 0 { TermState.new with bus := { NodeBus.new with presence := .lost } } }
    LinkReady room ∧ termOf 25#8 = some 0 ∧ room.termConfigured 0 = true ∧ room.termConfigured 2 = false
      ∧ 32 < (List.replicate 33 65#8).length ∧ (List.replicate 32 65#8).length ≤ 32
      ∧ textSymbol 0x21#8 = none ∧ textSymbol 65#8 ≠ none
      ∧ LinkReady lost ∧ (lost.terminal 0).bus.presence = .lost
      ∧ LinkReady full ∧ (full.terminal 0).bus.presence ≠ .lost ∧ 4 ≤ (full.terminal 0).outbox.length
      ∧ (room.terminal 0).outbox.length < 4 := by decide +kernel

theorem test_witness_PricesLoadedAndRemoved :
    let many : State := { room with ret := { room.ret with
      prices := (List.range 32).map fun i =>
        { cls := .washer, program := i + 20, base := 0, ph := 0, pc := 0, n := 10, surcharges := [] } } }
    LinkReady room ∧ priceEntry 1#8 0#8 0#16 0#16 0#16 10#8 [] = none
      ∧ (priceEntry 1#8 3#8 0#16 0#16 0#16 10#8 []).isSome = true
      ∧ LinkReady many ∧ findPrice .washer 3 many.ret.prices = none ∧ 32 ≤ many.ret.prices.length
      ∧ findPrice .washer 3 room.ret.prices ≠ none ∧ room.ret.prices.length < 32
      ∧ MachineClass.ofCode 0#8 = none ∧ MachineClass.ofCode 1#8 = some .washer
      ∧ findPrice .washer 15 room.ret.prices = none := by decide +kernel

/-- The test that LOAD BANDS makes (R85). -/
def goodBands (bands : List (BitVec 16 × Byte × Byte)) : Bool :=
  decide (bands.length ≤ 8
    ∧ (∀ b ∈ bands, b.1.toNat ≤ 10079 ∧ 50 ≤ b.2.1.toNat ∧ b.2.1.toNat ≤ 250 ∧ b.2.2.toNat ≤ 1)
    ∧ bands.Pairwise (fun a b => a.1.toNat < b.1.toNat))

theorem test_witness_LoadBandsReplacesTable :
    goodBands [] = true ∧ goodBands [(0#16, 50#8, 0#8), (10079#16, 250#8, 1#8)] = true
      ∧ goodBands [(10079#16, 250#8, 1#8), (0#16, 50#8, 0#8)] = false
      ∧ goodBands [(10080#16, 50#8, 0#8)] = false ∧ goodBands [(0#16, 49#8, 0#8)] = false
      ∧ goodBands [(0#16, 50#8, 2#8)] = false ∧ LinkReady room := by
  refine ⟨?_, ?_, ?_, ?_, ?_, ?_, by decide +kernel⟩ <;> simp [goodBands]

theorem test_witness_AddCardMakesRecord :
    LinkReady room ∧ 2 < (3#8).toNat ∧ 500000 < (500001#24).toNat ∧ 90 < (91#8).toNat
      ∧ (room.card 10#64).isSome = true ∧ room.card 9#64 = none ∧ room.ret.cards.length < 512
      ∧ answer (after (.addCard 1#8 9#64 2#8 500000#24 90#8 50000#16) room) = some .ok
      ∧ answer (after (.addCard 1#8 9#64 2#8 500000#24 90#8 50001#16) room) = some .badValue
      ∧ answer (after (.addCard 1#8 10#64 0#8 0#24 0#8 0xFFFF#16) room) = some .duplicate := by decide +kernel

/-- The room with a full card table. -/
def fullTable : State := { room with ret := { room.ret with cards := List.replicate 512 (card 100#64 0) } }

theorem test_witness_AddCardMakesRecord_full :
    LinkReady fullTable ∧ fullTable.card 9#64 = none ∧ 512 ≤ fullTable.ret.cards.length := by
  refine ⟨by decide +kernel, ?_, ?_⟩
  · exact List.find?_eq_none.2 fun c hc => by rw [List.eq_of_mem_replicate hc]; decide
  · exact Nat.le_of_eq (List.length_replicate ..).symm

theorem test_witness_CreditAndDebitCard :
    LinkReady (withWash wash room) ∧ room.card 9#64 = none
      ∧ (withWash wash room).card 10#64 = some (card 10#64 380)
      ∧ 1000 + (499000#24).toNat ≤ 500000 ∧ 500000 < 1000 + (499001#24).toNat
      ∧ (1001#24).toNat > 1000 ∧ 1000 < (621#24).toNat + 380 ∧ (620#24).toNat + 380 ≤ 1000
      ∧ answer (after (.debitCard 1#8 10#64 621#24) (withWash wash room)) = some .inUse
      ∧ ((after (.debitCard 1#8 10#64 620#24) (withWash wash room)).card 10#64).map (·.balance) = some 380 := by
  decide +kernel

theorem test_witness_CardRecordRequests :
    LinkReady room ∧ room.card 9#64 = none ∧ room.card 10#64 = some (card 10#64 0)
      ∧ (card 10#64 0).held = 0 ∧ LinkReady (withWash wash room)
      ∧ (withWash wash room).card 10#64 = some (card 10#64 380) ∧ 0 < (card 10#64 380).held
      ∧ answer (after (.setCard 1#8 10#64 2#8 90#8 50000#16) room) = some .ok
      ∧ answer (after (.setCard 1#8 10#64 2#8 90#8 50001#16) room) = some .badValue := by decide +kernel

theorem test_witness_SetBudgetAppliesOrWaits :
    LinkReady room ∧ LinkReady heating ∧ 250 < (251#8).toNat ∧ (250#8).toNat ≤ 250
      ∧ heating.committed = 23 ∧ heating.newestDryer = some 1 ∧ room.newestDryer = none
      ∧ (after (.setBudget 1#8 22#8) heating).ret.pendingBudget = some 22
      ∧ (after (.setBudget 1#8 23#8) heating).ret.budget = 23
      ∧ LinkReady (withWash wash room) ∧ (withWash wash room).committed = 5
      ∧ (withWash wash room).newestDryer = none := by decide +kernel

theorem test_witness_ReleaseHeatEndsLostGrant :
    let lost := withVol 1 (fun v => { v with bus := { v.bus with presence := .lost } }) releasing
    LinkReady lost ∧ posOf 2#8 = some 1 ∧ lost.configured 1 = true ∧ lost.configured 5 = false
      ∧ (lost.vol 1).bus.presence = .lost ∧ (lost.vol 1).grant = .releasing ∧ 1 ∉ lost.heat.queue
      ∧ lost.ret.pendingBudget = none ∧ lost.heat.queue = [] ∧ 1 ∉ lost.heat.order
      ∧ LinkReady releasing ∧ (releasing.vol 1).bus.presence ≠ .lost := by decide +kernel

theorem test_witness_FaultClassLoadedAndFaultCleared :
    let lost (s : State) := withVol 0 (fun v => { v with bus := { v.bus with presence := .lost } }) s
    let active (code : Nat) := withFault 0 { code := code, severity := .lockout, autoClear := true } room
    LinkReady room ∧ 15 < (16#8).toNat ∧ (15#8).toNat ≤ 15 ∧ 2 < (3#8).toNat ∧ (2#8).toNat ≤ 2
      ∧ posOf 1#8 = some 0 ∧ (room.record 0).fault = none ∧ LinkReady (active 16)
      ∧ ((active 16).record 0).fault.isSome = true ∧ (active 16).configured 0 = true
      ∧ answer (after (.clearFault 1#8 1#8) (active 16)) = some .ok
      ∧ answer (after (.clearFault 1#8 1#8) (lost (active 16))) = some .refusedState
      ∧ answer (after (.clearFault 1#8 1#8) (active 15)) = some .ok := by decide +kernel

theorem test_witness_ReadFaultsAndSettlements : LinkReady State.reset ∧ State.reset.ret.faults ≠ [] := by
  decide +kernel

theorem test_witness_ReleaseThroughRemovesPrefix :
    let record (n : Nat) : Settlement := wash.settlement 0 (.plain .completed) n
    let s : State := { room with ret := { room.ret with settlements := [record 65534, record 1, record 2] } }
    LinkReady s ∧ 65534 < (65535#16).toNat ∧ (65534#16).toNat ≤ 65534
      ∧ (∀ r ∈ s.ret.settlements, r.number ≠ (3#16).toNat)
      ∧ s.ret.settlements = [record 65534] ++ record 1 :: [record 2] ∧ (record 1).number = (1#16).toNat
      ∧ ∀ x ∈ [record 65534], x.number ≠ (1#16).toNat := by decide +kernel

theorem test_witness_ForceEndEndsSession :
    let starting := { wash with state := .starting, elapsed := 0, startLimit := some 15 }
    let s := withWash wash room
    LinkReady room ∧ posOf 1#8 = some 0 ∧ room.session 0 = none ∧ LinkReady s ∧ s.configured 0 = true
      ∧ s.session 0 = some wash ∧ 1 < (2#8).toNat ∧ (1#8).toNat ≤ 1 ∧ wash.state ≠ .starting ∧ HeatLaw s
      ∧ QueueLaw (s.vol 0).orders ∧ s.ret.settlements = []
      ∧ LinkReady (withWash starting room) ∧ (withWash starting room).session 0 = some starting
      ∧ starting.state = .starting := by decide +kernel

theorem test_witness_ForceEndEndsSession_number : NumberFree (withWash wash room) :=
  numberFree_of_empty _ (by decide +kernel)

theorem test_witness_VisitSendsHeadItem :
    let items : State := withVol 0 (fun v => { v with orders := [sent .heatOff, order .enable] }) room
    let unlearned : State := withVol 0 (fun v => { v with bus := NodeBus.new }) room
    let boxed : State := { room with
      bus := { room.bus with slot := .terminal }
      term := room.term.set 0 { TermState.new with
        outbox := [{ body := .text [], tag := none }]
        bus := { NodeBus.new with learned := true, presence := .present } } }
    let asked : State := { room with bus := { room.bus with slot := .terminal } }
    (∀ s ∈ [room, items, unlearned, boxed, asked],
        s.live = true ∧ s.bus.visit = none ∧ s.bus.listening = true ∧ s.bus.jammed = false)
      ∧ room.candidates = [.machine 0, .machine 1] ∧ (room.vol 0).orders = []
      ∧ (room.nodeBus (.machine 0)).presence ≠ .lost
      ∧ items.candidates = [.machine 0, .machine 1] ∧ (items.vol 0).bus.learned = true
      ∧ (items.vol 0).orders = sent .heatOff :: [order .enable]
      ∧ unlearned.candidates = [.machine 0, .machine 1] ∧ (unlearned.vol 0).bus.learned = false
      ∧ (unlearned.nodeBus (.machine 0)).presence ≠ .lost
      ∧ boxed.candidates = [.terminal 0, .terminal 1] ∧ (boxed.terminal 0).bus.learned = true
      ∧ (boxed.terminal 0).outbox ≠ [] ∧ (boxed.nodeBus (.terminal 0)).presence ≠ .lost
      ∧ asked.candidates = [.terminal 0, .terminal 1] ∧ (asked.terminal 0).bus.learned = false
      ∧ (asked.nodeBus (.terminal 0)).presence ≠ .lost := by decide +kernel

theorem test_witness_SlotOfferedInTurn :
    let lost (skip : Nat) (s : State) :=
      withVol 0 (fun v => { v with bus := { v.bus with presence := .lost, skip := skip } }) s
    let last : State := { room with bus := { room.bus with machinePtr := some 1 } }
    let term : State := { room with bus := { room.bus with slot := .terminal, terminalPtr := some 0 } }
    room.candidates = .machine 0 :: [.machine 1] ∧ last.candidates = .machine 0 :: [.machine 1]
      ∧ term.candidates = .terminal 1 :: [.terminal 0]
      ∧ ([Node.machine 0] ++ Node.machine 1 :: []).Nodup
      ∧ ((lost 6 room).nodeBus (.machine 0)).presence = .lost ∧ ((lost 6 room).nodeBus (.machine 0)).skip < 7
      ∧ ((lost 6 room).nodeBus (.machine 1)).presence ≠ .lost
      ∧ 7 ≤ ((lost 7 room).nodeBus (.machine 0)).skip
      ∧ (offer [.machine 0, .machine 1] (lost 6 room)).2 = some (.machine 1)
      ∧ (offer [.machine 0, .machine 1] (lost 7 room)).2 = some (.machine 0) := by decide +kernel

/-- The first three characters of a reply of the washer. -/
def begun : List BusChar := (replyChars (.machine 0) 0x11#8 (List.replicate 10 0#8)).take 3

theorem test_witness_BusLineRows :
    let sending := visiting (.machine 0) .sending room
    let window := visiting (.machine 0) .window room
    let deaf : State := { room with bus := { room.bus with listening := false, space := some 7 } }
    let jam : State := { deaf with bus := { deaf.bus with jammed := true } }
    room.live = true ∧ sending.live = true ∧ sending.bus.visit.map (·.phase) = some .sending
      ∧ room.bus.listening = true ∧ room.bus.visit = none
      ∧ window.live = true ∧ window.bus.listening = true ∧ window.bus.visit.map (·.phase) = some .window
      ∧ replyIsComplete ([] ++ begun) = false ∧ deaf.live = true ∧ deaf.bus.listening = false
      ∧ deaf.bus.jammed = false ∧ deaf.bus.visit = none ∧ 499 < deaf.ret.config.jamLimit
      ∧ ¬ 500 < deaf.ret.config.jamLimit ∧ jam.live = true ∧ jam.bus.jammed = true := by decide +kernel

/-- R1, R8: a time at space throughout inside REPLY_COMPLETE is a break, and what follows it is not taken. -/
theorem test_witness_BusLineRows_break :
    let times := begun.map charTime ++ [0#11, charTime { data := 1#8, mark := false, framing := false }]
    let t := after (.replyComplete times) (visiting (.machine 0) .window room)
    (busChars times).2 = true ∧ (busChars times).1 = begun ∧ t.bus.listening = false
      ∧ t.bus.visit.map (·.phase) = some (.reply begun true) := by decide +kernel

theorem test_witness_FailedVisitIsMissed :
    let window := visiting (.machine 0) .window room
    let going := visiting (.machine 0) (.reply begun false) room
    let broken : State :=
      let s := visiting (.machine 0) (.reply begun true) room
      { s with bus := { s.bus with listening := false } }
    let whole := replyChars (.machine 1) 0x11#8 (List.replicate 10 0#8)
    window.live = true ∧ window.bus.visit.map (·.phase) = some .window ∧ window.bus.listening = true
      ∧ replyIsComplete ([] ++ whole) = true ∧ classify (.machine 0) ([] ++ whole) false false = none
      ∧ busChars (whole.map charTime) = (whole, false) ∧ busChars [] = ([], false)
      ∧ going.live = true ∧ going.bus.visit.map (·.phase) = some (.reply begun false)
      ∧ replyIsComplete (begun ++ []) = false ∧ begun ++ [] ≠ []
      ∧ broken.live = true ∧ broken.bus.listening = false ∧ broken.bus.jammed = false
      ∧ broken.bus.visit.map (·.phase) = some (.reply begun true) := by decide +kernel

theorem test_witness_MissesMakeNodeLost :
    let missed (n : Nat) := withVol 0 (fun v => { v with bus := { v.bus with miss := n } }) room
    let lost := withVol 0 (fun v => { v with bus := { v.bus with presence := .lost, miss := 15 } }) room
    (lost.nodeBus (.machine 0)).presence = .lost
      ∧ ((missed 2).nodeBus (.machine 0)).presence ≠ .lost
      ∧ ((missed 2).nodeBus (.machine 0)).miss + 1 < (missed 2).ret.config.lostLimit
      ∧ (missed 3).ret.config.lostLimit ≤ ((missed 3).nodeBus (.machine 0)).miss + 1
      ∧ (missed 3).session 0 = none ∧ ((missed 3).record 0).fault = none ∧ ((missed 3).vol 0).grant = .none := by
  decide +kernel

theorem test_witness_ValidReplyTaken :
    let chars := replyChars (.machine 0) 0x11#8 (bytes [1, 0, 0, 0, 0, 0, 0, 0, 0, 0])
    let s := visiting (.machine 0) .window room
    s.live = true ∧ s.bus.visit.map (fun v => (v.phase, v.removed)) = some (.window, false)
      ∧ s.bus.listening = true ∧ replyIsComplete ([] ++ chars) = true
      ∧ busChars (chars.map charTime) = (chars, false)
      ∧ (classify (.machine 0) ([] ++ chars) false false).isSome = true
      ∧ (room.terminal 0).bus.learned = false
      ∧ (room.record 0).config = some washer ∧ (room.record 0).fault = none ∧ room.session 0 = none
      ∧ (room.vol 0).grant = .none ∧ (room.vol 0).bus.presence = .present
      ∧ (room.vol 0).bus.learned = true := by decide +kernel

theorem test_witness_ReplyFieldsRead :
    let payload := bytes [1, 4, 9, 7, 0x17, 255, 200, 0x1F, 1, 3]
    kindAllowed (.machine 0) 0x11#8 = true ∧ lengthAllowed 0x11#8 payload.length = true
      ∧ (parseFields 0x11#8 payload).isSome = true ∧ lengthAllowed 0x11#8 24 = true
      ∧ lengthAllowed 0x11#8 9 = false ∧ lengthAllowed 0x11#8 25 = false
      ∧ parseFields 0x11#8 (bytes [1, 5, 9, 7, 0x17, 255, 200, 0x1F, 1, 3]) = none
      ∧ parseFields 0x11#8 (bytes [1, 4, 9, 7, 0x17, 255, 200, 0x1F, 1, 4]) = none
      ∧ (parseFields 0x11#8 (bytes [1, 4, 9, 7, 0x17, 255, 200, 0x1F, 0, 4])).isSome = true := by decide +kernel

theorem test_witness_ConfirmedOrderReachesOwner :
    let starting := { wash with state := .starting, elapsed := 0, startLimit := some 15 }
    let queued (o : Order) (s : State) := withVol 0 (fun v => { v with orders := [o] }) s
    let s := queued (sent (.start 3 6#4 0)) (withWash starting room)
    let gone := queued { sent (.start 3 6#4 0) with owned := false } room
    (s.vol 0).orders = sent (.start 3 6#4 0) :: [] ∧ (s.vol 0).owed = false
      ∧ s.session 0 = some starting ∧ starting.state = .starting ∧ s.admitsAnswer 0 7#8 = false
      ∧ ({ s with term := s.term.set 0 { TermState.new with request := some 7#8 } }).admitsAnswer 0 7#8 = true
      ∧ (gone.vol 0).orders = { sent (.start 3 6#4 0) with owned := false } :: []
      ∧ (gone.vol 0).owed = false ∧ (gone.vol 0).unpaid = false
      ∧ ((queued (sent .heatOff) room).vol 0).orders = sent .heatOff :: [] := by decide +kernel

theorem test_witness_TimeBaseTickAdvances :
    let s := withDry { dry with secs := 59, heatSecs := 29 } heating
    let t := after .timeBaseTick s
    s.live = true ∧ (∀ p, (s.session p).any (·.minuteDue) = false)
      ∧ (t.session 1).map (fun x => (x.secs, x.heatSecs, x.minuteDue)) = some (0, 30, true)
      ∧ ((after (.meterMinute 1) t).session 1).map (fun x => (x.elapsed, x.heated, x.cool)) = some (1, 1, 0)
      ∧ (after .timeBaseTick { s with clock := { minute := 10079, second := 59, valid := true } }).clock
        = { minute := 0, second := 0, valid := true } := by decide +kernel

theorem test_witness_MeterMinuteCounted :
    let due (ses : Session) : Session := { ses with minuteDue := true }
    let s := withWash { due wash with elapsed := 255 } (withDry { due dry with elapsed := 29 } room)
    let held := withDry { due dry with elapsed := 29, ext := some extension } room
    s.live = true ∧ s.session 0 = some { due wash with elapsed := 255 }
      ∧ s.session 1 = some { due dry with elapsed := 29 } ∧ (s.vol 1).grant = .none
      ∧ held.session 1 = some { due dry with elapsed := 29, ext := some extension }
      ∧ ((after (.meterMinute 1) s).session 1).map (·.state) = some .ending
      ∧ ((after (.meterMinute 1) held).session 1).map (fun x => (x.state, x.holding)) = some (.running, true)
      ∧ ((after (.meterMinute 0) s).session 0).map (·.elapsed) = some 255 := by decide +kernel

theorem test_witness_StartAndExtensionLimits :
    let starting := { wash with state := .starting, elapsed := 0, startLimit := some 0 }
    let extended := { dry with hold := 195, ext := some { extension with limit := some 0 } }
    let late := { extended with elapsed := 30, cool := 30, holding := true }
    let s := withWash starting (withDry extended room)
    s.live = true ∧ s.session 0 = some starting ∧ s.session 1 = some extended
      ∧ ((after (.startLimitExpiry 0) s).session 0).isNone = true
      ∧ ((after (.extensionLimitExpiry 1) s).session 1).map (fun x => (x.state, x.hold)) = some (.running, 130)
      ∧ ((after (.extensionLimitExpiry 1) (withDry late room)).session 1).map (fun x => (x.state, x.hold))
        = some (.ending, 130) := by decide +kernel

theorem test_witness_PauseAndDoneLimits :
    let paused := withDry { dry with state := .paused, pauseLimit := some 0 } room
    let ending := withDry { dry with state := .ending, elapsed := 30, cool := 30, doneLimit := some 0 } room
    (∀ s ∈ [paused, ending], s.live = true ∧ HeatLaw s ∧ QueueLaw (s.vol 1).orders ∧ s.ret.settlements = [])
      ∧ paused.session 1 = some { dry with state := .paused, pauseLimit := some 0 }
      ∧ ending.session 1 = some { dry with state := .ending, elapsed := 30, cool := 30, doneLimit := some 0 }
      ∧ (paused.vol 1).orders.length < 3 ∧ (paused.vol 1).owed = false := by decide +kernel

theorem test_witness_PauseAndDoneLimits_number (s : Session) : NumberFree (withDry s room) := by
  intro x h
  simp [withDry, room, State.reset, Retained.initial] at h

/-- The running dryer waits for heat. -/
def queueing : State :=
  withVol 1 (fun v => { v with grant := .queued }) (withDry dry { room with heat := { HeatState.new with queue := [1] } })

/-- The same with a budget that the dryer's heat does not fit. -/
def crowded : State := { queueing with ret := { queueing.ret with budget := 22 } }

/-- The same while SAG is asserted. -/
def sagging : State := { queueing with heat := { queueing.heat with sag := .asserted } }

theorem test_witness_GrantingFirstInFirstOut :
    (∀ s ∈ [queueing, crowded, sagging], HeatLaw s ∧ ∀ p ∈ s.heat.queue, (s.vol p).orders.length < 4)
      ∧ (evaluate queueing).heat.queue = [] ∧ (evaluate crowded).heat.queue = [1] := by decide +kernel

theorem test_witness_SliceExpiryYields :
    let expired := withVol 1 (fun v => { v with slice := some 0 }) heating
    let asked := withVol 0 (fun v => { v with grant := .queued })
      (withWash wash { expired with heat := { expired.heat with queue := [0] } })
    let unsent := withVol 1 (fun v => { v with orders := [order .heatOn] }) asked
    expired.live = true ∧ (expired.vol 1).grant = .granted ∧ (expired.vol 1).slice = some 0 ∧ expired.heat.queue = []
      ∧ asked.live = true ∧ (asked.vol 1).grant = .granted ∧ (asked.vol 1).slice = some 0
      ∧ asked.heat.queue ≠ [] ∧ (∀ o ∈ (asked.vol 1).orders, o.tag = none → o.body ≠ .heatOn)
      ∧ QueueLaw (asked.vol 1).orders ∧ (asked.vol 1).orders.length < 4
      ∧ (∀ s ∈ [asked, unsent], HeatLaw s) ∧ unsent.live = true ∧ (unsent.vol 1).heatRequest = false
      ∧ order .heatOn ∈ (unsent.vol 1).orders := by decide +kernel

theorem test_witness_SagWithdrawsEveryGrant :
    heating.live = true ∧ heating.pins.sag = false ∧ HeatLaw heating ∧ (∀ p, QueueLaw (heating.vol p).orders)
      ∧ (heating.vol 1).grant = .granted := by decide +kernel

theorem test_witness_PositionFaultRaised :
    let classed (sev : Severity) (s : State) : State := { s with ret := { s.ret with
      classes := s.ret.classes.set 4 { severity := sev, policy := .unused, autoClear := false } } }
    let starting := { wash with state := .starting, elapsed := 0, startLimit := some 15 }
    let locked := withFault 0 { code := 16, severity := .lockout, autoClear := true } room
    ((classed .notice room).classOf 5).severity = .notice ∧ (room.classOf 5).severity = .lockout
      ∧ (locked.record 0).fault = some { code := 16, severity := .lockout, autoClear := true }
      ∧ ((classed .safety locked).classOf 5).severity = .safety ∧ locked.session 0 = none
      ∧ (∀ s ∈ [room, withWash wash room, withWash starting room, classed .safety locked],
          HeatLaw s ∧ QueueLaw (s.vol 0).orders ∧ s.ret.settlements = [])
      ∧ (room.record 0).fault = none ∧ (withWash wash room).session 0 = some wash
      ∧ (withWash starting room).session 0 = some starting ∧ (room.vol 0).prevFault ≠ 5 := by decide +kernel

theorem test_witness_AuthorizationChecksInOrder :
    (room.record 5).config = none ∧ (room.record 0).config = some washer ∧ room.card 12#64 = none
      ∧ room.card 10#64 = some (card 10#64 0) ∧ room.session 0 = none
      ∧ findPrice .washer 4 room.ret.prices = none ∧ (findPrice .washer 3 room.ret.prices).isSome = true
      ∧ (withWash wash room).session 0 = some wash ∧ wash.mclass ≠ .dryer
      ∧ (withDry dry room).session 1 = some dry ∧ dry.cardId = 11#64 ∧ dry.mclass = .dryer
      ∧ dry.state = .running ∧ dry.ext = none ∧ dryer.limits.isSome = true := by decide +kernel

theorem test_witness_RequestOpensSession :
    let r : CardRequest :=
      { reqTag := 40#8, cardId := 10#64, position := 1#8, program := 3#8, options := 0#4, minutes := 0#8 }
    let top : CardRequest := { r with cardId := 11#64, program := 1#8, minutes := 20#8 }
    let created := match authorize 0 0 r room with
      | .ok (.create _) => true
      | .ok (.topup _ _) => false
      | .error _ => false
    let topped := match authorize 1 0 top (withDry dry room) with
      | .ok (.create _) => none
      | .ok (.topup m k) => some (m, k)
      | .error _ => none
    created = true ∧ (room.vol 0).orders.length < 4 ∧ topped = some (15, 65)
      ∧ (withDry dry room).session 1 = some dry ∧ ((withDry dry room).vol 1).orders.length < 4 := by decide +kernel

theorem test_witness_ColdStartInitialises :
    let off (held : Bool) : State := { room with
      power := { vdd := false, resetHeld := held, waiting := false }
      ret := { room.ret with valid := false } }
    let held : State := { off true with power := { vdd := true, resetHeld := true, waiting := false } }
    (off false).power.vdd = false ∧ (off false).power.resetHeld = false ∧ (off false).ret.valid = false
      ∧ held.power.vdd = true ∧ held.power.resetHeld = true ∧ held.ret.valid = false
      ∧ (off true).power.vdd = false ∧ (off true).power.resetHeld = true := by decide +kernel

theorem test_witness_WarmStartSettlesSessions :
    let s := withWash wash room
    let off (held : Bool) : State := { s with power := { vdd := false, resetHeld := held, waiting := false } }
    let held (w : Bool) : State := { s with power := { vdd := true, resetHeld := true, waiting := w } }
    let answering := withLink (fun l => { l with transmit := [restartReply], sending := true }) room
    (off false).ret.valid = true ∧ (off false).power.vdd = false ∧ (off false).power.resetHeld = false
      ∧ (off true).power.resetHeld = true ∧ (held false).ret.valid = true ∧ (held false).power.vdd = true
      ∧ (held true).power.resetHeld = true ∧ (held true).power.waiting = true ∧ (held false).power.waiting = false
      ∧ answering.ret.valid = true ∧ answering.live = true ∧ answering.link.sending = true
      ∧ answering.link.transmit = restartReply :: [] ∧ restartReply.type = 0x7F#8 ∧ restartReply.status = .ok
      ∧ s.pins.sag = false ∧ s.ret.journal = none ∧ s.session 0 = some wash ∧ s.ret.settlements = []
      ∧ ∀ q ≠ (0 : PosIx), s.session q = none := by decide +kernel

/-- A dryer whose open extension fails while its meter holds, with an EXTEND in some queue. -/
def failing (q : List Order) : State :=
  withVol 1 (fun v => { v with orders := q }) (withDry { dry with holding := true, ext := some extension } room)

theorem test_witness_QueueCoalescing :
    let full := [sent (.start 1 0#4 0), order .halt, order .finish, order .disable]
    QueueLaw full ∧ QueueLaw [] ∧ QueueLaw [sent .heatOff, order .halt, order .heatOff, order .disable]
      ∧ QueueLaw [sent .finish, order .heatOn, order (.extend 5)]
      ∧ OrderBody.disable.display = true ∧ 4 ≤ full.length
      ∧ [sent .finish, order .heatOn, order (.extend 5)] = [sent .finish] ++ order .heatOn :: [order (.extend 5)] := by
  decide +kernel

/-- Chains of two steps: HALT strips an EXTEND and the END that its report asked for; HEAT_OFF displaces both. -/
theorem test_witness_QueueCoalescing_chain :
    let told (o : Order) (p : PosIx) (u : State) : State := serveOwed p (reportCancelled withdraw p o u)
    let holding (q : List Order) (u : State) : State := withVol 1 (fun v => { v with orders := q }) u
    let stripped (o : Order) : Bool := o.tag.isNone && o.body.strippable
    let a := failing [sent .heatOn, order (.extend 15), order .disable]
    let b := told (order (.extend 15)) 1 (holding [sent .heatOn, order .disable] a)
    let c := told (order .finish) 1 (holding [sent .heatOn, order .disable] b)
    let d := failing [sent .heatOn, order .halt, order .disable, order (.extend 15)]
    let e := told (order (.extend 15)) 1 (holding [sent .heatOn, order .halt, order .disable] d)
    let f := told (order .finish) 1 (holding [sent .heatOn, order .halt, order .disable] e)
    (a.vol 1).orders.find? stripped = some (order (.extend 15)) ∧ (b.vol 1).orders.find? stripped = some (order .finish)
      ∧ (∀ o ∈ (c.vol 1).orders, stripped o = false) ∧ QueueLaw (c.vol 1).orders
      ∧ (b.vol 1).orders = [sent .heatOn, order .disable, order .finish]
      ∧ (e.vol 1).orders = [sent .heatOn, order .halt, order .disable, order .finish]
      ∧ (f.vol 1).orders = [sent .heatOn, order .halt, order .disable] ∧ QueueLaw (f.vol 1).orders
      ∧ askHeatOff 1 d = holding [sent .heatOn, order .halt, order .heatOff, order .disable] f
      ∧ askHalt 1 a = holding [sent .heatOn, order .halt, order .disable] c := by decide +kernel

theorem test_witness_FaultQueueOverflow :
    32 ≤ storm.length ∧ (storm.take 31).length < 32
      ∧ (storm[2]?).map (·.severity) = some .notice ∧ (∀ x ∈ storm.take 2, x.severity ≠ .notice)
      ∧ ∀ x ∈ storm.map (fun r => { r with severity := Severity.lockout }), x.severity ≠ .notice := by
  decide +kernel

theorem test_witness_ChargesWithinHold :
    (90 : Nat) ≤ 90 ∧ (2 : Nat) ≤ 4 ∧ 31 + 14 ≤ 45 ∧ (250 : Nat) ≤ 250 ∧ (5000 : Nat) ≤ 5000
      ∧ dryerPrice 250 0 60000 = 150000 ∧ washerPrice 5000 4000 250 0 = 16500 := by decide +kernel

theorem test_witness_ResetKeepsLaws :
    let off : State := { room with
      power := { vdd := false, resetHeld := false, waiting := false }
      ret := { room.ret with valid := false } }
    off.power.vdd = false ∧ off.power.resetHeld = false ∧ off.ret.valid = false ∧ off.pins.sag = false := by
  decide +kernel

theorem test_witness_StepKeepsHeatLaw :
    HeatLaw State.reset ∧ HeatLaw heating
      ∧ (∃ t, step { heating with pending := [.sagAssert] } = .next t) ∧ heating.live = true := by
  exact ⟨by decide +kernel, by decide +kernel, ⟨_, rfl⟩, by decide +kernel⟩

theorem test_witness_StepKeepsCapacities :
    CapacityLaw State.reset ∧ CapacityLaw room
      ∧ ∃ t, step { room with pending := [.addCard 1#8 9#64 0#8 0#24 0#8 0xFFFF#16] } = .next t := by
  exact ⟨by decide +kernel, by decide +kernel, ⟨_, rfl⟩⟩

/-! ## States that meet the further clauses of the statements -/

/-- Two requests wait, the first of which is given; `replies` stand behind the reply that goes out. -/
def twoWaiting (first : Request) (replies : List ReplyFrame) : State :=
  withLink (fun l => { l with
    transmit := frame :: replies, sending := true, holding := true
    buffer := [{ waiting with req := first }, waiting] }) room

theorem test_witness_SentReplyLeavesQueue_two :
    (∀ s ∈ [twoWaiting .status [frame, frame], twoWaiting .status [frame, frame, frame],
        twoWaiting .restart [frame]],
      s.live = true ∧ s.link.sending = true ∧ s.link.restarting = false)
      ∧ (after .replyFrameSent (twoWaiting .status [frame, frame])).link.buffer = []
      ∧ (after .replyFrameSent (twoWaiting .status [frame, frame])).link.flow = some .go
      ∧ (after .replyFrameSent (twoWaiting .status [frame, frame, frame])).link.buffer = [waiting]
      ∧ (after .replyFrameSent (twoWaiting .status [frame, frame, frame])).link.flow = none
      ∧ (after .replyFrameSent (twoWaiting .restart [frame])).link.buffer = [waiting] := by decide +kernel

/-- R196: the lengths of READ CARD, and those that the counts of LOAD PRICE and LOAD BANDS give. -/
theorem test_witness_BadFrameAnswered_lengths :
    let counted (n : Nat) (count : Byte) (more : Nat) := List.replicate n 1#8 ++ count :: List.replicate more 1#8
    let bad (type : Byte) (payload : List Byte) : Bool := parseRequest type payload = .badFrame type
    bad 0x37#8 (List.replicate 8 0#8) = false ∧ bad 0x37#8 (List.replicate 7 0#8) = true
      ∧ bad 0x20#8 (counted 9 2#8 6) = false ∧ bad 0x20#8 (counted 9 2#8 7) = true
      ∧ bad 0x22#8 (counted 0 1#8 4) = false ∧ bad 0x22#8 (counted 0 2#8 4) = true ∧ bad 0x22#8 [] = true
      ∧ bad 0x1A#8 (counted 1 0#8 0) = false ∧ bad 0x1A#8 (counted 1 1#8 0) = true := by decide +kernel

/-- R179, R180: 48 records are the high level, and a masked cause does not assert ATTN_N. -/
theorem test_witness_StatusReports_causes :
    let held (n : Nat) (mask : BitVec 7) : State := { room with
      link := { room.link with restarted := false }
      ret := { room.ret with
        config := { room.ret.config with attnMask := mask }
        faults := []
        settlements := List.replicate n (wash.settlement 0 (.plain .completed) 1) } }
    (held 47 127#7).highestCause = some .settlementsWaiting ∧ (held 48 127#7).highestCause = some .settlementHigh
      ∧ (held 48 0b0010000#7).highestCause = some .settlementsWaiting ∧ (held 48 0#7).attention = false
      ∧ (held 0 127#7).attention = false ∧ (held 1 127#7).attention = true := by decide +kernel

theorem test_witness_ShowText_answers :
    let text (n : Nat) : Item := { body := .text (List.replicate n 65#8), tag := none }
    let gone : Item := { text 9 with tag := some 3#4 }
    let a : Answer :=
      { reqTag := 7#8, decline := none, amount := 0, minutes := 0, options := 0#4, available := none }
    let i : Item := { body := .answer a false, tag := none }
    let asked (box : List Item) : State := { room with
      term := room.term.set 0 { TermState.new with request := some 7#8, outbox := box } }
    placeAnswer i [gone, text 1, text 2] = [gone, i, text 1, text 2]
      ∧ placeAnswer i [gone, text 1, text 2, text 3] = [gone, i, text 2, text 3]
      ∧ (asked []).termConfigured 0 = true ∧ ((asked []).terminal 0).request = some a.reqTag
      ∧ ((sendAnswer 0 a (asked [text 1])).terminal 0).outbox = [i, text 1]
      ∧ sendAnswer 0 a (asked [i]) = asked [i] ∧ sendAnswer 0 a room = room := by decide +kernel

theorem test_witness_LoadBands_reading :
    let early : Band := { start := 360, multiplier := 80, closed := false }
    let late : Band := { start := 1320, multiplier := 120, closed := true }
    let at1 (minute : Nat) (valid : Bool) : State := { room with
      clock := { minute := minute, second := 0, valid := valid }
      ret := { room.ret with bands := [early, late] } }
    [0, 359, 360, 1319, 1320].map (fun m => (at1 m true).bandReading.m) = [120, 120, 80, 80, 120]
      ∧ (at1 1320 true).bandReading.closed = true ∧ (at1 1320 false).bandReading.closed = false
      ∧ (at1 360 false).bandReading.minute = none ∧ room.ret.bands = [] := by decide +kernel

/-- Two dryers and a washer with heat, 66 LU of load; the dryer at address 3 was granted last but one. -/
def threeGranted : State :=
  let granted (s : PosState) : PosState := { s with grant := .granted, slice := some 360 }
  { heating with
    ret := { heating.ret with positions := heating.ret.positions.set 2 { PosRecord.empty with config := some dryer } }
    pos := ((room.pos.set 0 { granted (heardMachine .washer) with slice := none }).set 1
      (granted (heardMachine .dryer))).set 2 (granted (heardMachine .dryer))
    heat := { HeatState.new with order := [1, 2, 0] } }

/-- The first three grants after a SET BUDGET to so much below committed load. -/
def grantsAfter (below : Nat) (s : State) : List Grant :=
  let t := after (.setBudget 1#8 (num1 (s.committed - below))) s
  [(t.vol 0).grant, (t.vol 1).grant, (t.vol 2).grant]

/-- The same with sessions at the washer and one dryer. -/
def threeSold : State := withWash wash (withDry dry threeGranted)

/-- The same where the HEAT_ON of the newest dryer is not delivered. -/
def threeUnsent : State := withVol 2 (fun v => { v with orders := [order .heatOn] }) threeSold

theorem test_witness_SetBudget_newest_first :
    (∀ s ∈ [threeSold, threeUnsent], LinkReady s) ∧ (∀ s ∈ [threeSold, threeUnsent], HeatLaw s)
      ∧ threeSold.newestDryer = some 2 ∧ threeSold.stillDrawn = threeSold.committed
      ∧ threeSold.heat.order.reverse.filter threeSold.isDryer = [2, 1] := by decide +kernel

theorem test_witness_SetBudget_outcomes :
    grantsAfter 1 threeSold = [.granted, .granted, .releasing]
      ∧ grantsAfter 20 threeSold = [.granted, .granted, .releasing]
      ∧ grantsAfter 21 threeSold = [.granted, .releasing, .releasing]
      ∧ grantsAfter 60 threeSold = [.granted, .releasing, .releasing]
      ∧ grantsAfter 1 threeUnsent = [.granted, .granted, .none]
      ∧ (after (.setBudget 1#8 (num1 (threeUnsent.committed - 1))) threeUnsent).ret.pendingBudget = none := by
  decide +kernel

theorem test_witness_ReleaseHeat_by_state :
    let off := withVol 1 (fun v => { v with orders := [] }) releasing
    let pending (n : Nat) (s : State) : State := { s with ret := { s.ret with pendingBudget := some n } }
    let ready := withVol 1 (fun v => { v with armed := false }) off
    ((testViolation 1 false off).vol 1).grant = .releasing ∧ ((testViolation 1 false off).vol 1).heatOffStands = false
      ∧ ((testViolation 1 false releasing).vol 1).heatOffStands = true
      ∧ 1 ∉ (testViolation 1 false off).heat.queue
      ∧ (testViolation 1 false off).sessionIs 1 .running = true ∧ 0 < (testViolation 1 false off).heaterDemand 1
      ∧ ((heatTakesState 1 false true off).vol 1).grant = .granted
      ∧ ((heatTakesState 1 false false off).vol 1).grant = .none
      ∧ ((heatTakesState 1 true true ready).vol 1).grant = .releasing
      ∧ (heatTakesState 1 false false (pending 3 off)).ret.pendingBudget = none
      ∧ (heatTakesState 1 false false (pending 2 off)).ret.pendingBudget = some 2
      ∧ (activatePending (pending 23 off)).ret.budget = 23
      ∧ (activatePending (pending 22 off)).ret.budget = 100 := by decide +kernel

theorem test_witness_SlotOffered_none_taken :
    let gone (skip : Nat) (v : PosState) : PosState :=
      { v with bus := { v.bus with presence := .lost, skip := skip } }
    let lost (a b : Nat) := withVol 0 (gone a) (withVol 1 (gone b) room)
    let from1 : State := { room with bus := { room.bus with machinePtr := some 0 } }
    (∃ p, room.configured p = true) ∧ room.bus.slot = .machine1
      ∧ from1.candidates = ([1] ++ [0] : List PosIx).map .machine
      ∧ (∀ x ∈ (lost 6 6).candidates,
        ((lost 6 6).nodeBus x).presence = .lost ∧ ((lost 6 6).nodeBus x).skip < 7)
      ∧ (offer (lost 6 6).candidates (lost 6 6)).2 = none
      ∧ (offer (lost 6 7).candidates (lost 6 7)).2 = some (.machine 1)
      ∧ (after .visit (lost 6 6)).bus.visit.map (·.node) = some (.machine 0)
      ∧ (after .visit (lost 6 6)).bus.slot = .terminal
      ∧ { State.reset with bus := { BusState.new with listening := true } }.candidates = [] := by decide +kernel

/-- The states in which a machine may become LOST: with a session, a fault or a grant. -/
def losing : List State :=
  let starting := { wash with state := .starting, elapsed := 0, startLimit := some 15 }
  let fault (p : PosIx) := withFault p { code := 5, severity := .lockout, autoClear := false }
  [room, withWash wash room, withWash starting room, fault 0 (withWash wash room), fault 0 room,
    heating, fault 1 heating, withDry { dry with ext := some extension } heating,
    withVol 1 (fun v => { v with grant := .queued })
      (withDry dry { room with heat := { HeatState.new with queue := [1] } }), releasing]

theorem test_witness_MissesMakeNodeLost_machine :
    ∀ s ∈ losing, HeatLaw s ∧ QueueLaw (s.vol 0).orders ∧ QueueLaw (s.vol 1).orders ∧ s.ret.settlements = []
      ∧ (s.nodeBus (.machine 0)).presence ≠ .lost ∧ (s.nodeBus (.machine 1)).presence ≠ .lost := by decide +kernel

theorem test_witness_MissesMakeNodeLost_outcomes :
    let lost (p : PosIx) (s : State) := missNode (.machine p) .silent (withVol p
      (fun v => { v with bus := { v.bus with miss := 3 } }) s)
    (losing.map fun s => ((lost 0 s).session 0).isSome)
        = [false, false, false, true, false, false, false, false, false, false]
      ∧ (losing.map fun s => (lost 0 s).ret.settlements.length) = [0, 1, 0, 0, 0, 0, 0, 0, 0, 0]
      ∧ (losing.map fun s => ((lost 1 s).vol 1).grant)
        = [.none, .none, .none, .none, .none, .releasing, .releasing, .releasing, .none, .releasing] := by
  decide +kernel

theorem test_witness_ValidReplyTaken_tags :
    let f (echo : ItemTag) : ReplyFields := .state { last := {
      cls := .washer, mstate := .ready, phase := .none, doorLocked := false, heaterOn := false,
      heatRequest := false, remaining := 0, fault := 0 }, echo := echo, outcome := .taken }
    let carrying := withVol 0 (fun v => { v with orders := [sent .enable, order .heatOff] }) room
    let unlearned := withVol 0 (fun v => { v with bus := NodeBus.new }) carrying
    let lost (code : Nat) := withVol 0 (fun v => { v with bus := { v.bus with presence := .lost } })
      (withFault 0 { code := code, severity := .lockout, autoClear := true } room)
    ((takeValid (.machine 0) (some 5#4) (f 5#4) carrying).vol 0).orders = [order .heatOff]
      ∧ ((takeValid (.machine 0) (some 5#4) (f 6#4) carrying).vol 0).orders = [sent .enable, order .heatOff]
      ∧ ((takeValid (.machine 0) (some 5#4) (f 5#4) unlearned).vol 0).bus.counter = 5#4
      ∧ (((takeValid (.machine 0) (some 5#4) (f 5#4) unlearned).vol 0).orders.length = 3)
      ∧ ((heardNode (.machine 0) (lost 16)).record 0).fault = none
      ∧ (((heardNode (.machine 0) (lost 16)).vol 0).orders.map (·.body)) = [.enable]
      ∧ (((heardNode (.machine 0) (lost 15)).vol 0).orders.map (·.body)) = [.disable] := by decide +kernel

theorem test_witness_ValidReplyTaken_card :
    let r : CardRequest :=
      { reqTag := 40#8, cardId := 10#64, position := 1#8, program := 3#8, options := 0#4, minutes := 0#8 }
    let heard : State := { room with
      term := room.term.set 0 { TermState.new with bus := { NodeBus.new with learned := true } } }
    let boxed : State := { heard with
      term := heard.term.set 0 { heard.terminal 0 with outbox := [{ body := .text [], tag := some 4#4 }] } }
    (heard.terminal 0).bus.learned = true ∧ (room.terminal 0).bus.learned = false
      ∧ ((takeValid (.terminal 0) none (.card 4#4 r) heard).session 0).isSome = true
      ∧ ((takeValid (.terminal 0) none (.card 4#4 r) room).terminal 0).bus.counter = 4#4
      ∧ ((takeValid (.terminal 0) (some 4#4) (.nil 4#4) boxed).terminal 0).outbox = []
      ∧ ((takeValid (.terminal 0) (some 4#4) (.nil 5#4) boxed).terminal 0).outbox.length = 1 := by decide +kernel

/-- R6: a VALID reply, and the same reply with one error of each kind. -/
theorem test_witness_ReplyFieldsRead_errors :
    let node : Node := .machine 0
    let good := replyChars node 0x11#8 (bytes [1, 4, 9, 7, 0x17, 255, 200, 0x1F, 1, 3])
    let change (i : Nat) (f : BusChar → BusChar) := good.modify i f
    let taken (chars : List BusChar) (gap broken : Bool) : Bool := (classify node chars gap broken).isSome
    replyIsComplete good = true ∧ taken good false false = true
      ∧ taken good true false = false ∧ taken good false true = false
      ∧ taken (change 5 fun c => { c with framing := true }) false false = false
      ∧ taken (change 0 fun c => { c with mark := false }) false false = false
      ∧ taken (change 5 fun c => { c with mark := true }) false false = false
      ∧ taken (change 0 fun c => { c with data := 130#8 }) false false = false
      ∧ taken (change 5 fun c => { c with data := 0#8 }) false false = false
      ∧ taken (replyChars node 0x12#8 [0#8]) false false = false
      ∧ taken (replyChars node 0x11#8 (List.replicate 25 1#8)) false false = false
      ∧ taken (replyChars node 0x11#8 (bytes [1, 5, 9, 7, 0x17, 255, 200, 0x1F, 1, 3])) false false = false := by
  decide +kernel

theorem test_witness_ConfirmedOrder_owners :
    let starting := { wash with state := .starting, elapsed := 0, startLimit := some 15 }
    let queued (os : List Order) (p : PosIx) (s : State) := withVol p (fun v => { v with orders := os }) s
    let start := sent (.start 3 6#4 0)
    let gone := { start with owned := false }
    let extending := { dry with hold := 195, ext := some extension }
    let late := { extending with elapsed := 30, cool := 30, holding := true }
    let unpaid (os : List Order) := withVol 0 (fun v => { v with unpaid := true }) (queued os 0 room)
    let shape (s : State) := (s.session 1).map fun x => (x.state, x.purchased, x.hold)
    ((confirmOrder 0 (.refused .notReady) (queued [start] 0 (withWash starting room))).session 0).isNone = true
      ∧ ((confirmOrder 0 .taken (queued [gone] 0 room)).vol 0).orders = [order .halt]
      ∧ ((confirmOrder 0 .taken (unpaid [gone])).vol 0).orders = [order .halt]
      ∧ ((confirmOrder 0 .taken (unpaid [gone, order .halt])).vol 0).orders = [order .halt]
      ∧ shape (confirmOrder 1 .taken (queued [sent (.extend 15)] 1 (withDry extending room)))
        = some (.running, 45, 195)
      ∧ shape (confirmOrder 1 (.refused .notReady) (queued [sent (.extend 15)] 1 (withDry extending room)))
        = some (.running, 30, 130)
      ∧ shape (confirmOrder 1 (.refused .notReady) (queued [sent (.extend 15)] 1 (withDry late room)))
        = some (.ending, 30, 130)
      ∧ ((confirmOrder 1 (.refused .doorOpen) (queued [sent .heatOn] 1 heating)).vol 1).grant = .none
      ∧ ((confirmOrder 1 .taken (queued [sent .heatOn] 1 heating)).vol 1).grant = .granted
      ∧ ((confirmOrder 1 (.refused .doorOpen) (queued [sent .heatOn] 1 room)).vol 1).grant = .none := by decide +kernel

theorem test_witness_ConfirmedOrder_display_and_items :
    let owed (os : List Order) := withVol 0 (fun v => { v with orders := os, owed := true }) room
    let a (tag : Byte) : Answer :=
      { reqTag := tag, decline := none, amount := 0, minutes := 0, options := 0#4, available := none }
    let asked (tag : Byte) : State := { room with
      term := room.term.set 0 { TermState.new with
        request := some 7#8
        outbox := [{ body := .answer (a tag) false, tag := some 1#4 }] } }
    ((confirmOrder 0 .taken (owed [sent .halt, order .heatOff])).vol 0).orders = [order .heatOff, order .enable]
      ∧ ((confirmOrder 0 .taken (owed [sent .halt])).vol 0).owed = false
      ∧ ((confirmItem 0 (asked 7#8)).terminal 0).request = none
      ∧ ((confirmItem 0 (asked 7#8)).terminal 0).lastTag = some 7#8
      ∧ ((confirmItem 0 (asked 8#8)).terminal 0).request = some 7#8 ∧ (room.terminal 0).outbox = [] := by
  decide +kernel

theorem test_witness_MeterMinute_withdraws :
    let due : Session := { dry with minuteDue := true, elapsed := 29 }
    let granted := withDry due heating
    let unsent := withVol 1 (fun v => { v with orders := [order .heatOn] }) granted
    let waits := withVol 1 (fun v => { v with grant := .queued })
      (withDry due { room with heat := { HeatState.new with queue := [1] } })
    (∀ s ∈ [granted, unsent, waits], s.live = true ∧ HeatLaw s ∧ QueueLaw (s.vol 1).orders
        ∧ s.session 1 = some due)
      ∧ [granted, unsent, waits].map (fun s => ((after (.meterMinute 1) s).vol 1).grant)
        = [.releasing, .none, .none]
      ∧ [granted, unsent, waits].map (fun s => ((after (.meterMinute 1) s).vol 1).orders.map (·.body))
        = [[.heatOff, .finish], [.finish], [.finish]] := by decide +kernel

/-- R104, R108, R111, R116: what a STATE does at a position, by its machine state. -/
theorem test_witness_PauseAndDone_states :
    let marked (f : PosState → PosState) := withVol 0 f room
    let shape (s : State) := (s.session 1).map (·.state)
    let told (ms : MachineState) (ses : Session) (s : State) := sessionTakesState 1 ms (withDry ses s)
    let starting := { dry with state := .starting, startLimit := some 15 }
    let ending := { dry with state := .ending, elapsed := 30, cool := 30, doneLimit := some 9 }
    sessionTakesState 0 .ready room = room
      ∧ ((sessionTakesState 0 .running (marked fun v => { v with windDown := true })).vol 0).unpaid = false
      ∧ ((sessionTakesState 0 .running room).vol 0).orders = [order .halt]
      ∧ (sessionTakesState 0 .running (marked fun v => { v with unpaid := true })).ret.faults = room.ret.faults
      ∧ shape (told .ready { dry with startReport := true } room) = some .running
      ∧ shape (told .ready starting room) = some .starting
      ∧ shape (told .paused dry room) = some .paused
      ∧ shape (told .running { dry with state := .paused, pauseLimit := some 9 } room) = some .running
      ∧ shape (told .running ending room) = some .ending
      ∧ ((told .paused dry heating).vol 1).grant = .releasing
      ∧ (told .paused dry heating).live = true ∧ HeatLaw (withDry dry heating)
      ∧ [MachineState.done, .ready, .doorOpen].map (fun ms =>
          (told ms ending room).ret.settlements.map fun r => (r.reason, r.charged))
        = [[(.completed, 65)], [(.cycleLost, 65)], [(.cycleLost, 65)]] := by decide +kernel

theorem test_witness_Granting_requests :
    let asks (s : State) := heatTakesState 1 false true s
    let idle := withDry dry room
    let unheated : State := { idle with ret := { idle.ret with
      positions := idle.ret.positions.set 1 { PosRecord.empty with config := some { dryer with heater := 0 } } } }
    ((testViolation 1 false idle).vol 1).grant = .none ∧ (testViolation 1 false idle).sessionIs 1 .running = true
      ∧ 0 < (testViolation 1 false idle).heaterDemand 1
      ∧ ((asks idle).vol 1).grant = .granted ∧ ((asks room).vol 1).grant = .none
      ∧ ((asks unheated).vol 1).grant = .none ∧ ((asks heating).vol 1).grant = .granted
      ∧ ((heatTakesState 1 false false queueing).vol 1).grant = .none
      ∧ ((heatTakesState 1 true false heating).vol 1).grant = .releasing := by decide +kernel

theorem test_witness_SliceExpiry_withdraw :
    let unsent (asked : Bool) : State :=
      withVol 1 (fun v => { v with orders := [order .disable, order .heatOn], heatRequest := asked }) heating
    (∀ s ∈ [unsent true, unsent false], HeatLaw s ∧ (s.vol 1).grant = .granted ∧ (s.vol 1).owed = false)
      ∧ ((withdraw 1 (unsent true)).vol 1).grant = .granted ∧ ((withdraw 1 (unsent false)).vol 1).grant = .none
      ∧ ((withdraw 1 (unsent false)).vol 1).orders = [order .disable]
      ∧ ((withdraw 1 queueing).vol 1).grant = .none ∧ withdraw 1 releasing = releasing
      ∧ ((withdraw 1 heating).vol 1).orders = [order .heatOff] := by decide +kernel

/-- R138, R139, R144, R152. -/
theorem test_witness_PositionFault_by_state :
    let counted (n : Nat) := withVol 1 (fun v => { v with violations := n, armed := true }) room
    let marked := withVol 0 (fun v => { v with mismatch := true }) room
    let active (code : Nat) (auto : Bool) := withFault 0 { code := code, severity := .lockout, autoClear := auto } room
    let cleared (s : State) (ms : MachineState) : Bool := ((faultTakesField 0 0 ms s).record 0).fault.isNone
    ((faultTakesClass 0 .dryer room).record 0).fault.map (·.code) = some 18
      ∧ faultTakesClass 0 .dryer marked = marked ∧ ((faultTakesClass 0 .washer marked).vol 0).mismatch = false
      ∧ cleared (active 15 true) .ready = true ∧ cleared (active 15 true) .doorOpen = false
      ∧ cleared (active 15 false) .ready = false ∧ cleared (active 16 true) .ready = false
      ∧ [0, 1, 2].map (fun n => ((testViolation 1 true (counted n)).vol 1).violations) = [1, 2, 2]
      ∧ [0, 1, 2].map (fun n => ((testViolation 1 true (counted n)).record 1).fault.map (·.code))
        = [none, some 17, none]
      ∧ ((testViolation 1 false (counted 1)).vol 1).violations = 0 := by decide +kernel

/-- R49, R50, R51: a repeat, a request at a busy terminal, and what the terminal checks decline. -/
theorem test_witness_RequestOpensSession_card :
    let r : CardRequest :=
      { reqTag := 40#8, cardId := 10#64, position := 1#8, program := 3#8, options := 0#4, minutes := 0#8 }
    let term (f : TermState) : State := { room with term := room.term.set 0 f }
    let asking : TermState := { TermState.new with request := some 39#8 }
    let once := takeCard 0 r (term asking)
    let reasons (s : State) : List (Option DeclineReason) := (s.terminal 0).outbox.map fun i => match i.body with
      | .answer a _ => a.decline
      | .text _ => none
    takeCard 0 { r with reqTag := 39#8 } (term asking) = term asking
      ∧ takeCard 0 r (term { TermState.new with lastTag := some 40#8 }) = term { TermState.new with lastTag := some 40#8 }
      ∧ reasons once = [some .terminalBusy] ∧ takeCard 0 r once = once
      ∧ takeCard 0 { r with reqTag := 41#8 } once = once
      ∧ reasons (takeCard 0 { r with position := 25#8 } room) = [some .noSuchMachine]
      ∧ reasons (takeCard 0 { r with cardId := 0#64 } room) = [some .unknownCard]
      ∧ reasons (takeCard 0 { r with program := 16#8 } room) = [some .noSuchProgram]
      ∧ reasons (takeCard 0 { r with program := 0#8 } room) = [some .noSuchProgram]
      ∧ ((takeCard 0 r room).session 0).isSome = true
      ∧ reasons (takeCard 0 { r with cardId := 12#64 } room) = [some .unknownCard] := by decide +kernel

theorem test_witness_PowerLoss_dead :
    let dead (vdd held waiting : Bool) : State := { room with
      power := { vdd := vdd, resetHeld := held, waiting := waiting } }
    (dead false false false).live = false ∧ (dead true true false).live = false ∧ (dead true true true).live = false
      ∧ room.power.vdd = true ∧ room.power.resetHeld = false ∧ (dead false false false).power.vdd = false
      ∧ after .timeBaseTick (dead true true false) = dead true true false
      ∧ (after .sagAssert (dead false false false)).pins.sag = true := by decide +kernel

theorem test_witness_QueueCoalescing_reports :
    let full := [sent .heatOff, order (.start 3 6#4 0), order .disable, order .heatOn]
    let s := withVol 0 (fun v => { v with orders := full, owed := true }) room
    (full.filter Urgent.halt.cancels) = [order (.start 3 6#4 0), order .heatOn]
      ∧ ((askHalt 0 s).vol 0).orders = [sent .heatOff, order .halt, order .enable] ∧ ((askHalt 0 s).vol 0).owed = false
      ∧ { order (.extend 5) with owned := false }.owned = false
      ∧ (reportCancelled withdraw 0 { order (.extend 5) with owned := false } s) = s
      ∧ (serveOwed 0 room) = room := by decide +kernel

/-- R90, R93: the bounds are met with equality by the largest values, and the purchase minutes by their range. -/
theorem test_witness_ChargesWithinHold_bounds :
    let l : PurchaseLimits := { minimum := 10, maximum := 45, dflt := 30 }
    (5000 * 250 + 50) / 100 + 4000 = 16500 ∧ dryerHold 250 0 500 120 = 150000
      ∧ [0, 9, 10, 45, 46].map (purchaseMinutes l) = [30, 10, 10, 45, 45]
      ∧ wash.cclass ≠ .service ∧ wash.mclass = .washer ∧ dry.mclass = .dryer ∧ dry.cclass ≠ .service := by
  decide +kernel

/-- A full order queue. -/
def fullQueue : List Order := [sent .heatOff, order .halt, order .finish, order .disable]

/-- R36, R103, R114: a START and an EXTEND refused at a full queue. -/
theorem test_witness_RequestOpensSession_full :
    let r : CardRequest :=
      { reqTag := 40#8, cardId := 10#64, position := 1#8, program := 3#8, options := 0#4, minutes := 0#8 }
    let top : CardRequest := { r with cardId := 11#64, program := 1#8, minutes := 20#8 }
    let full (p : PosIx) (s : State) := withVol p (fun v => { v with orders := fullQueue }) s
    let ok (p : PosIx) (r : CardRequest) (s : State) : Bool := match authorize p 0 r s with
      | .ok _ => true
      | .error _ => false
    ok 0 r (full 0 room) = true ∧ ok 1 top (full 1 (withDry dry room)) = true ∧ fullQueue.length = 4
      ∧ ((takeRequest 0 0 r (full 0 room)).session 0).isNone = true
      ∧ (takeRequest 0 0 r (full 0 room)).card 10#64 = some (card 10#64 0)
      ∧ (takeRequest 1 0 top (full 1 (withDry dry room))).session 1 = some dry
      ∧ (takeRequest 1 0 top (full 1 (withDry dry room))).card 11#64 = some (card 11#64 130) := by decide +kernel

/-- R36, R128: a HEAT_ON refused at a full queue leaves the grant NONE. -/
theorem test_witness_Granting_full :
    let s := withVol 1 (fun v => { v with orders := fullQueue }) queueing
    HeatLaw s ∧ s.heat.queue = [1] ∧ (s.vol 1).orders.length = 4 ∧ s.committed + s.heaterDemand 1 ≤ s.ret.budget
      ∧ ((evaluate s).vol 1).grant = .none ∧ ((evaluate s).vol 1).orders = fullQueue
      ∧ (evaluate s).heat.queue = [] ∧ (evaluate s).committed = s.committed := by decide +kernel

/-- R15: the VALID reply of a removed node. -/
theorem test_witness_ValidReplyTaken_removed :
    let chars := replyChars (.machine 0) 0x11#8 (bytes [1, 0, 0, 0, 0, 0, 0, 0, 0, 0])
    let s := visiting (.machine 0) .window room
    let gone : State := { s with bus := { s.bus with visit := s.bus.visit.map fun v => { v with removed := true } } }
    gone.live = true ∧ gone.bus.visit.map (·.removed) = some true ∧ gone.bus.listening = true
      ∧ replyIsComplete chars = true ∧ (classify (.machine 0) chars false false).isSome = true
      ∧ busChars (chars.map charTime) = (chars, false)
      ∧ after (.replyComplete (chars.map charTime)) gone = gone.visitEnded := by decide +kernel

/-- R135, R177, R191: a start that finds SAG asserted, and the RESTART reply sent. -/
theorem test_witness_WarmStart_sag :
    let sagged : State := { room with
      pins := { room.pins with sag := true }
      power := { vdd := false, resetHeld := false, waiting := false }
      ret := { room.ret with nextFault := 65535 } }
    let t := after (.powerUp false false) sagged
    let answering := withLink (fun l => { l with transmit := [restartReply], sending := true }) room
    sagged.ret.valid = true ∧ t.heat.sag = .asserted ∧ t.ret.nextFault = 1
      ∧ t.ret.faults.getLast?.map (fun r => (r.number, r.code, r.minute)) = some (65535, 23, none)
      ∧ (after .replyFrameSent answering).link.cause = .restartRequest := by decide +kernel

/-- R34, R196: a dryer out of service, in use, PRESENT, GRANTED and READY with its door locked. -/
theorem test_witness_ReadMachines_entry :
    let s := withVol 1 (fun v => { v with
      orders := fullQueue
      lastState := v.lastState.map fun x => { x with doorLocked := true, remaining := 7 } }) heating
    let out : State := { s with ret := { s.ret with
      positions := s.ret.positions.set 1 { s.record 1 with oos := true } } }
    out.machineEntry 1 = [2#8, 0x66#8, 0xFF#8, 0x21#8, 0#8, 0#8, 0x41#8, 7#8]
      ∧ room.machineEntry 5 = [6#8, 0x3C#8, 0xFF#8, 0x0F#8, 0xFF#8, 0xFF#8, 0x0F#8, 0xFF#8] := by decide +kernel

/-- R195: three characters to a group, the last group filled. -/
theorem test_witness_VisitSends_text :
    (ItemBody.text [0x41#8, 0x62#8, 0x39#8, 0x2D#8]).bytes
      = (0x04#8, 4#8 :: (num2 (2 * 1600 + 3 * 40 + 37) ++ num2 (39 * 1600))) := by decide +kernel

/-- R39: a display order takes the fourth place, and is owed where 4 orders are left. -/
theorem test_witness_QueueCoalescing_display :
    queueDisplay .enable [sent .heatOff, order .disable, order .halt, order .finish]
        = ([sent .heatOff, order .halt, order .finish, order .enable], false)
      ∧ queueDisplay .enable [sent .disable, order .halt, order .heatOff, order .finish]
        = ([sent .disable, order .halt, order .heatOff, order .finish], true) := by decide +kernel

/-- With no card and no session in the store, its laws of money are those of its prices and positions. -/
theorem moneyLaw_of_empty (r : Retained) (hc : r.cards = []) (hs : r.sessions = Vector.replicate 24 none)
    (hp : r.prices = []) (hq : r.positions = Vector.replicate 24 PosRecord.empty) : MoneyLaw r := by
  refine ⟨by simp [hc], by simp [hc], fun id => ?_, by simp [hp], fun p cfg h => ?_, fun p ses h => ?_⟩
  · have h : r.holdsOf id = (allPositions.map fun _ => 0).sum := by
      unfold Retained.holdsOf
      congr 2
      funext p
      simp [hs]
    simp [h, hc, allPositions]
  · simp [hq, PosRecord.empty] at h
  · simp [hs] at h

theorem test_witness_StepKeepsMoney :
    LedgerLaw State.reset
      ∧ ∃ t, step { State.reset with pending := [.addCard 1#8 9#64 0#8 0#24 0#8 0xFFFF#16] } = .next t := by
  refine ⟨⟨fun r hr => ?_, fun _ => ⟨rfl, fun p ses h => ?_⟩⟩, ⟨_, rfl⟩⟩
  · have : r = State.reset.ret := by simpa [State.reset] using hr
    subst this
    exact moneyLaw_of_empty _ rfl rfl rfl rfl
  · simp [State.session, State.reset, Retained.initial] at h

/-- Only the washer's card has a hold in the room with the washer's session. -/
theorem holdsOf_other (id : CardId) (h : id ≠ 10#64) : (withWash wash room).ret.holdsOf id = 0 := by
  have h10 : ¬ 10#64 = id := fun e => h e.symm
  simp only [Retained.holdsOf, withWash, room, State.reset, Retained.initial, allPositions]
  simp [h10, wash]

/-- What a check of an optional record says of the record. -/
theorem of_all {α : Type} {o : Option α} {P : α → Prop} [DecidablePred P]
    (h : o.all (fun a => decide (P a)) = true) (a : α) (ha : o = some a) : P a := by
  subst ha
  simpa using h

theorem test_witness_StepKeepsMoney_sale : LedgerLaw (withWash wash room) ∧ (withWash wash room).live = true := by
  have hs : (withWash wash room).ret.settled = (withWash wash room).ret := rfl
  have hc : (withWash wash room).ret.cards = [card 10#64 380, card 11#64 0] := by decide +kernel
  have hcfg : ∀ p : PosIx, ((withWash wash room).ret.positions[p.val].config.all fun c =>
      decide (c.cls = .dryer → 1 ≤ c.purchase.minimum ∧ 1 ≤ c.purchase.dflt ∧ 1 ≤ c.purchase.maximum)) = true := by
    decide +kernel
  have hses : ∀ p : PosIx, (withWash wash room).session p = if p = 0 then some wash else none := by
    decide +kernel
  refine ⟨⟨fun r hr => ?_, fun _ => ⟨rfl, fun p ses h => ?_⟩⟩, by decide +kernel⟩
  · have : r = (withWash wash room).ret := by simpa [withWash, room, State.reset] using hr
    subst this
    rw [hs]
    refine ⟨by decide +kernel, by decide +kernel, fun id => ?_, by decide +kernel,
      fun p => of_all (hcfg p), fun p ses h => ?_⟩
    · by_cases h : id = 10#64
      · subst h; decide +kernel
      · have h10 : ¬ 10#64 = id := fun e => h e.symm
        rw [holdsOf_other id h, hc]
        rw [List.find?_cons_of_neg (by simpa [card] using h10)]
        by_cases h11 : 11#64 = id
        · rw [List.find?_cons_of_pos (by simpa [card] using h11)]; rfl
        · rw [List.find?_cons_of_neg (by simpa [card] using h11)]; rfl
    · have h1 : (if p = 0 then some wash else none) = some ses := (hses p).symm.trans h
      split at h1
      · cases h1
        refine ⟨by decide +kernel, by decide +kernel, by decide +kernel, fun _ => rfl, nofun, nofun⟩
      · cases h1
  · rw [hses] at h
    split at h
    · cases h; exact nofun
    · cases h

end Sys2Proof.Tests
end

