-- ==== Sys2Proof/Proofs/Charges.lean ====
section
/-! The charge arithmetic (R90 to R96, R118): what each pricing function keeps and is bounded by, what a session is
charged by them, and the statement assembled from these lemmas. -/

namespace Sys2Proof.Machine

/-! ## Scaling and discount -/

@[simp] theorem scaled_zero (m : Nat) : scaled m 0 = 0 := by simp [scaled]

/-- Taken at the largest amounts the tables admit, it also bounds the scaled amount (R90, R92). -/
theorem scaled_mono {m m' g g' : Nat} (hm : m ≤ m') (hg : g ≤ g') : scaled m g ≤ scaled m' g' :=
  Nat.div_le_div_right (Nat.add_le_add_right (Nat.mul_le_mul hg hm) 50)

@[simp] theorem discounted_zero (d : Nat) : discounted d 0 = 0 := by simp [discounted]

theorem discounted_le (d a : Nat) : discounted d a ≤ a := Nat.sub_le _ _

/-- A rise of the amount by k raises the discount by at most k (R92). -/
theorem discount_add_le {d : Nat} (hd : d ≤ 90) (a k : Nat) : (a + k) * d / 100 ≤ a * d / 100 + k :=
  calc (a + k) * d / 100
      ≤ (a * d + k * 100) / 100 := by
        rw [Nat.add_mul]
        exact Nat.div_le_div_right (Nat.add_le_add_left (Nat.mul_le_mul_left k (by omega)) _)
    _ = a * d / 100 + k := Nat.add_mul_div_right _ _ (by decide)

theorem discounted_mono {d : Nat} (hd : d ≤ 90) {a b : Nat} (hab : a ≤ b) :
    discounted d a ≤ discounted d b := by
  obtain ⟨k, rfl⟩ := Nat.exists_eq_add_of_le hab
  have hk := discount_add_le hd a k
  unfold discounted
  omega

/-! ## The dryer (R92 to R94) -/

@[simp] theorem dryerPrice_zero (m d : Nat) : dryerPrice m d 0 = 0 := by simp [dryerPrice]

theorem dryerPrice_mono (m : Nat) {d : Nat} (hd : d ≤ 90) {g h : Nat} (hgh : g ≤ h) :
    dryerPrice m d g ≤ dryerPrice m d h :=
  discounted_mono hd (scaled_mono le_rfl hgh)

theorem dryerPrice_le_scaled (m d g : Nat) : dryerPrice m d g ≤ scaled m g := discounted_le _ _

theorem dryerPrice_le_150000 {m g : Nat} (d : Nat) (hm : m ≤ 250) (hg : g ≤ 60000) :
    dryerPrice m d g ≤ 150000 :=
  (dryerPrice_le_scaled m d g).trans (scaled_mono hm hg)

/-- The metered gross is at most the purchased gross (R94). -/
theorem dryerGross_le {ph pc h c p : Nat} (hpc : pc ≤ ph) (hp : h + c ≤ p) :
    h * ph + c * pc ≤ p * ph :=
  calc h * ph + c * pc
      ≤ h * ph + c * ph := Nat.add_le_add_left (Nat.mul_le_mul_left c hpc) _
    _ = (h + c) * ph := (Nat.add_mul h c ph).symm
    _ ≤ p * ph := Nat.mul_le_mul_right ph hp

theorem dryerCharge_le_dryerHold (m : Nat) {d ph pc h c p : Nat} (hd : d ≤ 90) (hpc : pc ≤ ph) (hp : h + c ≤ p) :
    dryerCharge m d ph pc h c ≤ dryerHold m d ph p :=
  dryerPrice_mono m hd (dryerGross_le hpc hp)

theorem dryerCharge_all_heated (m d ph pc p : Nat) : dryerCharge m d ph pc p 0 = dryerHold m d ph p := by
  simp [dryerCharge, dryerHold]

theorem dryerCharge_no_minute (m d ph pc : Nat) : dryerCharge m d ph pc 0 0 = 0 := by simp [dryerCharge]

/-- A minute counted cool is charged no more than the same minute counted heated (R94). -/
theorem dryerCharge_cool_le_heated (m : Nat) {d ph pc : Nat} (hd : d ≤ 90) (hpc : pc ≤ ph) (h c : Nat) :
    dryerCharge m d ph pc h (c + 1) ≤ dryerCharge m d ph pc (h + 1) c := by
  apply dryerPrice_mono m hd
  simp only [Nat.add_mul, Nat.one_mul]
  omega

theorem dryerGross_le_60000 {p ph : Nat} (hp : p ≤ 120) (hph : ph ≤ 500) : p * ph ≤ 60000 :=
  Nat.mul_le_mul hp hph

theorem purchaseMinutes_eq_clamp (l : PurchaseLimits) (asked : Nat) (h : l.minimum ≤ l.maximum) :
    purchaseMinutes l asked = if asked = 0 then l.dflt else max l.minimum (min asked l.maximum) := by
  unfold purchaseMinutes
  split
  · rfl
  · split
    · omega
    · split <;> omega

/-! ## The washer (R90, R91) -/

theorem washerPrice_le_gross (base sur m d : Nat) : washerPrice base sur m d ≤ scaled m base + sur :=
  discounted_le _ _

theorem scaled_base_le_12500 {base m : Nat} (hb : base ≤ 5000) (hm : m ≤ 250) : scaled m base ≤ 12500 :=
  scaled_mono hm hb

theorem washerGross_le_16500 {base sur m : Nat} (hb : base ≤ 5000) (hm : m ≤ 250) (hs : sur ≤ 4000) :
    scaled m base + sur ≤ 16500 :=
  Nat.add_le_add (scaled_base_le_12500 hb hm) hs

theorem washerPartial_le_net (net e : Nat) {n : Nat} (hn : 0 < n) : washerPartial net e n ≤ net :=
  calc net * min e n / n
      ≤ net * n / n := Nat.div_le_div_right (Nat.mul_le_mul_left net (Nat.min_le_right e n))
    _ = net := Nat.mul_div_cancel net hn

theorem washerPartial_no_minute (net n : Nat) : washerPartial net 0 n = 0 := by simp [washerPartial]

theorem washerPartial_of_nominal_le (net : Nat) {e n : Nat} (hn : 0 < n) (he : n ≤ e) :
    washerPartial net e n = net := by
  rw [washerPartial, Nat.min_eq_right he, Nat.mul_div_cancel net hn]

@[simp] theorem washerPartial_zero_net (e n : Nat) : washerPartial 0 e n = 0 := by simp [washerPartial]

/-- The elapsed minutes enter as the nominal minutes when they are greater (R91). -/
theorem washerPartial_eq_ite (net e n : Nat) :
    washerPartial net e n = net * (if n < e then n else e) / n := by
  have hmin : min e n = if n < e then n else e := by split <;> omega
  rw [washerPartial, hmin]

/-! ## A session of class SERVICE (R96) -/

namespace Session

variable {ses : Session}

theorem net_of_service (hs : ses.cclass = .service) : ses.net = 0 := if_pos hs

theorem holdFor_of_service (hs : ses.cclass = .service) (p : Nat) : ses.holdFor p = 0 := if_pos hs

theorem unusedCharge_of_service (hs : ses.cclass = .service) : ses.unusedCharge = 0 := by
  unfold unusedCharge
  cases ses.mclass with
  | washer => simp [net_of_service hs]
  | dryer => simp [hs]

theorem wholeCharge_of_service (hs : ses.cclass = .service) : ses.wholeCharge = 0 := by
  unfold wholeCharge
  cases ses.mclass with
  | washer => exact net_of_service hs
  | dryer => exact holdFor_of_service hs _

/-! ## The charge of a close (R118) -/

/-- FAULT and OPERATOR charge by the policy. -/
theorem charge_of_policy {reason : EndReason} (hr : reason = .fault ∨ reason = .operator) :
    ses.charge reason .full = 0 ∧ ses.charge reason .unused = ses.unusedCharge
      ∧ ses.charge reason .none = ses.wholeCharge := by
  rcases hr with rfl | rfl <;> exact ⟨rfl, rfl, rfl⟩

/-- A lost cycle and the two kinds of start charge under the UNUSED rule. -/
theorem charge_of_cut {reason : EndReason} (policy : Policy)
    (hr : reason = .cycleLost ∨ reason = .powerLoss ∨ reason = .restarted) :
    ses.charge reason policy = ses.unusedCharge := by
  rcases hr with rfl | rfl | rfl <;> rfl

/-- The two time limits charge under the UNUSED rule. -/
theorem charge_of_limit {reason : EndReason} (policy : Policy) (hr : reason = .abandoned ∨ reason = .doneTimeout) :
    ses.charge reason policy = ses.unusedCharge := by
  rcases hr with rfl | rfl <;> rfl

theorem charge_completed_washer (hm : ses.mclass = .washer) (policy : Policy) :
    ses.charge .completed policy = ses.net := by simp [charge, hm]

theorem charge_completed_dryer (hm : ses.mclass = .dryer) (policy : Policy) :
    ses.charge .completed policy = ses.unusedCharge := by simp [charge, hm]

/-- Whatever the end reason and policy, a close of a SERVICE session charges 0 (R96). -/
theorem charge_of_service (hs : ses.cclass = .service) (reason : EndReason) (policy : Policy) :
    ses.charge reason policy = 0 := by
  have hunused := unusedCharge_of_service hs
  cases reason with
  | completed =>
    cases hm : ses.mclass with
    | washer => rw [charge_completed_washer hm, net_of_service hs]
    | dryer => rw [charge_completed_dryer hm, hunused]
  | fault | operator =>
    cases policy with
    | full => rfl
    | unused => exact hunused
    | none => exact wholeCharge_of_service hs
  | abandoned | doneTimeout | cycleLost | powerLoss | restarted => exact hunused

/-! ## The amounts of a session from its frozen terms (R90, R91, R93, R94) -/

theorem net_of_ne_service (hs : ses.cclass ≠ .service) :
    ses.net = washerPrice ses.base ses.surcharge ses.m ses.d := if_neg hs

theorem holdFor_of_ne_service (hs : ses.cclass ≠ .service) (p : Nat) :
    ses.holdFor p = dryerHold ses.m ses.d ses.ph p := if_neg hs

theorem unusedCharge_washer (hm : ses.mclass = .washer) :
    ses.unusedCharge = washerPartial ses.net ses.elapsed ses.n := by simp [unusedCharge, hm]

theorem unusedCharge_dryer (hm : ses.mclass = .dryer) (hs : ses.cclass ≠ .service) :
    ses.unusedCharge = dryerCharge ses.m ses.d ses.ph ses.pc ses.heated ses.cool := by simp [unusedCharge, hm, hs]

theorem wholeCharge_washer (hm : ses.mclass = .washer) : ses.wholeCharge = ses.net := by simp [wholeCharge, hm]

theorem wholeCharge_dryer (hm : ses.mclass = .dryer) : ses.wholeCharge = ses.holdFor ses.purchased := by
  simp [wholeCharge, hm]

end Session

/-! ## The statement -/

/-- Settles O56: the discount never outruns the amount it is taken from (`discount_add_le`), so no pricing function
falls; the rest is the bounds at the largest admitted values and the table of R118 by end reason. -/
theorem chargesWithinHold : Obligations.ChargesWithinHold := by
  unfold Obligations.ChargesWithinHold
  refine ⟨fun m d hd => ?functions, fun base sur m d _ hb hm hs => ?washerBounds, purchaseMinutes_eq_clamp,
    fun m d ph p _ hm hp hph => ?dryerBounds, fun m d ph pc h c hd hpc => dryerCharge_cool_le_heated m hd hpc h c,
    fun ses reason policy p hs => ?service, fun ses policy reason => ?close, fun ses policy hs => ?frozen⟩
  case functions =>
    exact ⟨fun _ => rfl, fun _ _ => rfl, fun _ _ _ _ => rfl, fun _ _ => dryerPrice_mono m hd,
      dryerPrice_le_scaled m d, fun hm _ => dryerPrice_le_150000 d hm,
      fun _ _ _ _ _ => dryerCharge_le_dryerHold m hd, dryerCharge_all_heated m d, dryerCharge_no_minute m d,
      fun _ _ => rfl,
      fun base sur hb hm hs => (washerPrice_le_gross base sur m d).trans (washerGross_le_16500 hb hm hs),
      fun net e n hn => ⟨washerPartial_eq_ite net e n, washerPartial_le_net net e hn,
        washerPartial_no_minute net n, washerPartial_of_nominal_le net hn⟩⟩
  case washerBounds =>
    exact ⟨scaled_base_le_12500 hb hm, washerGross_le_16500 hb hm hs, washerPrice_le_gross base sur m d⟩
  case dryerBounds =>
    have hgross := dryerGross_le_60000 hp hph
    exact ⟨hgross, dryerPrice_le_150000 d hm hgross⟩
  case service =>
    exact ⟨Session.net_of_service hs, Session.holdFor_of_service hs p, Session.unusedCharge_of_service hs,
      Session.wholeCharge_of_service hs, Session.charge_of_service hs reason policy⟩
  case close =>
    exact ⟨Session.charge_of_policy, Session.charge_of_cut policy, fun _ => Session.charge_of_limit policy⟩
  case frozen =>
    constructor
    · intro hm
      exact ⟨Session.net_of_ne_service hs, Session.charge_completed_washer hm policy,
        Session.unusedCharge_washer hm, Session.wholeCharge_washer hm⟩
    · intro hm
      have hhold := Session.holdFor_of_ne_service hs
      exact ⟨Session.unusedCharge_dryer hm hs, Session.charge_completed_dryer hm policy,
        (Session.wholeCharge_dryer hm).trans (hhold _), hhold⟩

end Sys2Proof.Machine
end

section
/-! The full fault queue (R155 to R158): which record leaves it, what an append writes, what READ FAULTS answers, and
the statement assembled from these lemmas. -/

namespace Sys2Proof.Machine

/-! ## The record that leaves a full queue (R157) -/

theorem dropForOverflow_oldest_notice {before after : List FaultRecord} {r : FaultRecord}
    (hr : r.severity = .notice) (hb : ∀ x ∈ before, x.severity ≠ .notice) :
    dropForOverflow (before ++ r :: after) = before ++ after := by
  have hany : (before ++ r :: after).any (fun x => x.severity == .notice) = true :=
    List.any_eq_true.mpr ⟨r, by simp, beq_iff_eq.mpr hr⟩
  have hbefore : ∀ x ∈ before, ¬ (x.severity == .notice) = true := fun x hx => by simpa using hb x hx
  rw [dropForOverflow, if_pos hany, List.eraseP_append_right _ hbefore]
  simp [hr]

theorem dropForOverflow_no_notice {q : List FaultRecord} (hq : ∀ x ∈ q, x.severity ≠ .notice) :
    dropForOverflow q = q.drop 1 := by
  have hany : ¬ q.any (fun x => x.severity == .notice) = true := by simpa using hq
  rw [dropForOverflow, if_neg hany, List.drop_one]

/-! ## The append (R155 to R157) -/

/-- The record that an append writes: the next number and the minute as they stand, and what the raising gives. -/
def State.faultRecord (code : Nat) (pos : Option PosIx) (sev : Severity) (number : Option Nat)
    (detail : Option MissKind) (s : State) : FaultRecord :=
  { number := s.ret.nextFault, code := code, position := pos, severity := sev, minute := s.minuteNow,
    settlement := number, detail := detail }

/-- The retained write of an append: `added` goes behind the records that are left, and uses up its number. -/
def State.putFault (left : List FaultRecord) (added : FaultRecord) (flag : Bool) (s : State) : State :=
  s.write fun r =>
    { r with
      faults := left ++ [added]
      nextFault := nextNumber Config.maxFaultNumber r.nextFault
      overflow := flag }

section
variable (code : Nat) (pos : Option PosIx) (sev : Severity) (number : Option Nat) (detail : Option MissKind)

theorem appendFault_of_room {s : State} (h : s.ret.faults.length < Config.faultCapacity) :
    appendFault code pos sev number detail s
      = s.putFault s.ret.faults (s.faultRecord code pos sev number detail) s.ret.overflow := by
  have hroom : ¬ Config.faultCapacity ≤ s.ret.faults.length := Nat.not_le.mpr h
  simp [appendFault, State.putFault, State.faultRecord, State.write, hroom]

theorem appendFault_of_full {s : State} (h : Config.faultCapacity ≤ s.ret.faults.length) :
    appendFault code pos sev number detail s
      = s.putFault (dropForOverflow s.ret.faults) (s.faultRecord code pos sev number detail) true := by
  simp [appendFault, State.putFault, State.faultRecord, State.write, h]

theorem appendFault_of_full_notice {s : State} {before after : List FaultRecord} {r : FaultRecord}
    (h : Config.faultCapacity ≤ s.ret.faults.length) (hq : s.ret.faults = before ++ r :: after)
    (hr : r.severity = .notice) (hb : ∀ x ∈ before, x.severity ≠ .notice) :
    appendFault code pos sev number detail s
      = s.putFault (before ++ after) (s.faultRecord code pos sev number detail) true := by
  rw [appendFault_of_full code pos sev number detail h, hq, dropForOverflow_oldest_notice hr hb]

theorem appendFault_of_full_no_notice {s : State} (h : Config.faultCapacity ≤ s.ret.faults.length)
    (hq : ∀ x ∈ s.ret.faults, x.severity ≠ .notice) :
    appendFault code pos sev number detail s
      = s.putFault (s.ret.faults.drop 1) (s.faultRecord code pos sev number detail) true := by
  rw [appendFault_of_full code pos sev number detail h, dropForOverflow_no_notice hq]

end

/-! ## READ FAULTS (R158) -/

/-- Behind the count the reply carries the flag as it stands, then up to 8 records. -/
theorem process_readFaults_payload_drop (s : State) :
    (process .readFaults s).payload.drop 1
      = flag1 s.ret.overflow :: (s.ret.faults.take Config.readCount).flatMap FaultRecord.bytes := rfl

theorem process_readFaults_overflow (s : State) : (process .readFaults s).state.ret.overflow = false := rfl

/-! ## The statement -/

/-- Settles O55: an append finds room, or a NOTICE to give up, or none; each is one lemma about `appendFault`, and the
two full cases rest on what `dropForOverflow` leaves. -/
theorem faultQueueOverflow : Obligations.FaultQueueOverflow := by
  unfold Obligations.FaultQueueOverflow
  refine ⟨fun code pos sev number detail s => ⟨fun hroom => ?room, fun hfull => ⟨?notice, fun hnone => ?noNotice⟩⟩,
    fun s => ⟨process_readFaults_payload_drop s, process_readFaults_overflow s⟩⟩
  case room => exact appendFault_of_room code pos sev number detail hroom
  case notice =>
    intro before r after hq hr hb
    exact appendFault_of_full_notice code pos sev number detail hfull hq hr hb
  case noNotice => exact appendFault_of_full_no_notice code pos sev number detail hfull hnone

end Sys2Proof.Machine
end

section
/-! The rows of the table of steps: what a row does while the part is live, and what a request row does at a ready
link, for a request that is carried out and for one that is refused (R171, R172). -/

namespace Sys2Proof.Machine

/-- The state as an event finds it: its trail of retained writes is empty (log entry 7). -/
abbrev State.fresh (s : State) : State := { s with trail := [] }

variable {s : State}

theorem taking_of_live (f : State → State) (h : s.live = true) : taking f s = .next (f s.fresh) := by
  rw [taking, if_pos h]

theorem taking_of_dead (f : State → State) (h : s.live = false) : taking f s = .next s := by
  rw [taking, if_neg (by simp [h])]

/-- A request row is the arrival of its request (R170; log entry 3). -/
theorem exec_row (r : Request) (tag : Byte) (hw : Request.wf r = true) (s : State) :
    exec (Request.row tag r) s = taking (takeRequestFrame (Request.waiting r tag)) s := by
  cases r with
  | badFrame type => exact absurd hw Bool.false_ne_true
  | _ => rfl

/-- A frame that a ready link takes is answered at once (R171). -/
theorem takeRequestFrame_of_ready (w : Waiting) (h : LinkReady s) :
    takeRequestFrame w s.fresh
      = (let v := process w.req { s with trail := [], link := { s.link with buffer := [w] } }
         { v.state with link := { v.state.link with buffer := [] } }.answered
          { type := w.type, tag := w.tag, status := v.status, payload := v.payload }) := by
  obtain ⟨-, hb, ht, hr, hh⟩ := h
  exact takeRequestFrame_ready w s.fresh hb ht hr hh _ rfl

/-- A request that reaches a ready link is answered with its block's verdict (R171). -/
theorem exec_row_of_ready {r : Request} {tag : Byte} (hw : Request.wf r = true) (h : LinkReady s) :
    exec (Request.row tag r) s
      = (let v := process r (s.heard r tag)
         .next ({ v.state with link := { v.state.link with buffer := [] } }.answered
          { type := Request.type r, tag := tag, status := v.status, payload := v.payload })) := by
  obtain ⟨hl, hrest⟩ := h
  rw [exec_row r tag hw, taking_of_live _ hl, takeRequestFrame_of_ready _ ⟨hl, hrest⟩]
  rfl

/-- A request that its block refuses changes nothing but the transmit queue (R172). -/
theorem exec_row_refused {r : Request} {tag : Byte} {st : Status} (hw : Request.wf r = true) (h : LinkReady s)
    (hv : process r (s.heard r tag) = refuse st (s.heard r tag)) :
    exec (Request.row tag r) s = .next (s.refusedWith (Request.type r) tag st) := by
  rw [exec_row_of_ready hw h, hv]
  obtain ⟨-, hb, -⟩ := h
  have same : { s.link with buffer := [] } = s.link := by rw [← hb]
  simp only [refuse, State.heard, State.refusedWith, same]

/-- A request that its block carries out is answered OK with the payload (R171, R172). -/
theorem exec_row_accepted {r : Request} {tag : Byte} {payload : List Byte} {t : State} (hw : Request.wf r = true)
    (h : LinkReady s) (hv : process r (s.heard r tag) = accept payload t) :
    exec (Request.row tag r) s
      = .next (State.replied { t with link := { t.link with buffer := [] } } (Request.type r) tag payload) := by
  rw [exec_row_of_ready hw h, hv]
  rfl

/-! ## The command at the front of the queue -/

/-- Settles O1: `step` is defined so. -/
theorem stepRunsFrontCommand : Obligations.StepRunsFrontCommand := by
  unfold Obligations.StepRunsFrontCommand
  refine ⟨fun _ _ _ => rfl, fun s h => ?_⟩
  rw [step, h]

/-! ## A request that is processed, and one that waits -/

/-- Settles O2: each request row is the arrival of its request, which a ready link processes. -/
theorem requestAnsweredAtOnce : Obligations.RequestAnsweredAtOnce := by
  unfold Obligations.RequestAnsweredAtOnce
  exact fun _ _ _ hw h => exec_row_of_ready hw h

/-- Nothing is processed while the transmit queue is full or RESTART has stopped the link (R171, R177). -/
theorem mayProcess_of_blocked
    (h : Config.transmitCapacity ≤ s.link.transmit.length ∨ s.link.restarting = true) : s.mayProcess = false := by
  rcases h with h | h
  · simp [State.mayProcess, Nat.not_lt.mpr h]
  · simp [State.mayProcess, h]

theorem mayProcess_of_empty (h : s.link.buffer = []) : s.mayProcess = false := by
  simp [State.mayProcess, h]

theorem processAll_of_not_mayProcess (h : s.mayProcess = false) : processAll s = s := by
  unfold processAll
  cases s.link.buffer.length with
  | zero => rfl
  | succ k => rw [processFor, if_neg (by simp [h])]

theorem bufferRequest_of_empty (w : Waiting) (h : s.link.buffer = []) :
    bufferRequest w s = { s with link := { s.link with buffer := [w] } } := by
  simp [bufferRequest, h, Config.bufferCapacity, State.setLink]

theorem bufferRequest_of_one (w x : Waiting) (h : s.link.buffer = [x]) :
    bufferRequest w s
      = { s with link := { s.link with buffer := [x, w], holding := true, flow := some .hold } } := by
  simp [bufferRequest, h, Config.bufferCapacity, State.setLink, askFlow]

theorem bufferRequest_of_full (w : Waiting) (h : 2 ≤ s.link.buffer.length) : bufferRequest w s = s := by
  rw [bufferRequest, if_pos (show Config.bufferCapacity ≤ _ from h)]

/-- Settles O3: the link is blocked, so the request stays where `bufferRequest` puts it. -/
theorem requestWaitsInBuffer : Obligations.RequestWaitsInBuffer := by
  unfold Obligations.RequestWaitsInBuffer
  intro r tag s hw hl hblocked w
  have waits : exec (Request.row tag r) s = .next (bufferRequest w s.fresh) := by
    rw [exec_row r tag hw, taking_of_live _ hl, takeRequestFrame,
      processAll_of_not_mayProcess (mayProcess_of_blocked ?_)]
    · rfl
    · unfold bufferRequest
      split
      · exact hblocked
      · dsimp only
        split <;> exact hblocked
  rw [waits]
  refine ⟨fun h => ?_, fun x h => ?_, fun h => ?_⟩
  · rw [bufferRequest_of_empty (s := s.fresh) w h]
  · rw [bufferRequest_of_one (s := s.fresh) w x h]
  · rw [bufferRequest_of_full (s := s.fresh) w h]

end Sys2Proof.Machine
end

section
/-! The ledger law is no step invariant as it is stated: it lets a session in ENDING hold an open extension, and the
confirmation of that EXTEND then raises the purchased minutes above the minutes counted. -/

namespace Sys2Proof.Machine

/-- A dryer session in ENDING, at its 30 purchased minutes, whose extension by 5 minutes is still open. Its card is of
class SERVICE, so that every amount is 0 (R96). -/
def endingWithExtension : Session :=
  { mclass := .dryer, cclass := .service, program := 1, options := 0#4, cardId := 7#64, term := 0, reqTag := 1#8,
    base := 0, ph := 0, pc := 0, surcharge := 0, n := 0, m := 100, d := 0, startMinute := none, state := .ending,
    hold := 0, purchased := 30
    ext := some { minutes := 5, hold := 0, term := 0, reqTag := 2#8, limit := none }
    elapsed := 30, heated := 30, cool := 0, secs := 0, heatSecs := 0, startLimit := none, pauseLimit := none,
    doneLimit := none, holding := false, startReport := false, minuteDue := false }

/-- The STATE of a running dryer that echoes tag 1 and confirms its order TAKEN, on the line. -/
def extendTakenReply : List BusTime :=
  (replyChars (.machine 0) 0x11#8 [2#8, 2#8, 1#8, 0#8, 0#8, 0#8, 0#8, 1#8, 0#8, 0#8]).map charTime

/-- Position 1 is a dryer with that session, its EXTEND is in delivery with tag 1, and its reply is on the line. -/
def extendInDelivery : State :=
  { State.reset with
    pending := [.replyComplete extendTakenReply]
    ret := { State.reset.ret with
      positions := State.reset.ret.positions.set 0
        { config := some { cls := .dryer, heater := 10, motor := 1
                           limits := some { minimum := 10, maximum := 45, dflt := 30 } }
          oos := false, fault := none }
      sessions := State.reset.ret.sessions.set 0 (some endingWithExtension) }
    pos := State.reset.pos.set 0 { PosState.new with
      orders := [{ body := .extend 5, owned := true, tag := some 1#4 }]
      bus := { NodeBus.new with learned := true, presence := .present } }
    bus := { BusState.new with
      listening := true
      visit := some { node := .machine 0, tag := some 1#4, frame := [], rate := .r19200, phase := .window
                      removed := false } } }

/-- What the reply makes of that state. -/
def extendConfirmed : State := overLine takeReply extendTakenReply { extendInDelivery with pending := [], trail := [] }

theorem extendInDelivery_session (p : PosIx) (ses : Session)
    (h : extendInDelivery.ret.sessions[p.val] = some ses) : ses = endingWithExtension := by
  have key : ∀ q : PosIx, extendInDelivery.ret.sessions[q.val] = none
      ∨ extendInDelivery.ret.sessions[q.val] = some endingWithExtension := by decide +kernel
  rcases key p with hp | hp <;> simp_all

theorem extendInDelivery_holdsOf (id : CardId) : extendInDelivery.ret.holdsOf id = 0 := by
  refine List.sum_eq_zero fun x hx => ?_
  obtain ⟨p, -, rfl⟩ := List.mem_map.mp hx
  split
  · rfl
  · next ses hp =>
    rw [extendInDelivery_session p ses hp]
    exact ite_self 0

theorem moneyLaw_extendInDelivery : MoneyLaw extendInDelivery.ret := by
  refine ⟨by decide +kernel, by decide +kernel, fun id => (extendInDelivery_holdsOf id).symm, by decide +kernel, ?_, ?_⟩
  · intro p cfg hc _
    have key : ∀ q : PosIx, ∀ c ∈ extendInDelivery.ret.positions[q.val].config,
        1 ≤ c.purchase.minimum ∧ 1 ≤ c.purchase.dflt ∧ 1 ≤ c.purchase.maximum := by decide +kernel
    exact key p cfg hc
  · intro p ses hs
    rw [extendInDelivery_session p ses hs]
    refine ⟨by decide, by decide, by decide, by decide, by decide, fun e he => ?_⟩
    obtain rfl : _ = e := Option.some.inj he
    decide

theorem ledgerLaw_extendInDelivery : LedgerLaw extendInDelivery := by
  refine ⟨fun r hr => ?_, fun _ => ⟨rfl, fun p ses hs => ?_⟩⟩
  · obtain rfl : r = extendInDelivery.ret := by simpa [extendInDelivery, State.reset] using hr
    exact moneyLaw_extendInDelivery
  · rw [extendInDelivery_session p ses hs]
    decide

theorem extendConfirmed_session :
    ∃ ses, extendConfirmed.session 0 = some ses ∧ ses.mclass = .dryer ∧ ses.state = .ending
      ∧ ses.elapsed = 30 ∧ ses.purchased = 35 := by
  have key : (extendConfirmed.session 0).any (fun ses => ses.mclass == .dryer && ses.state == .ending
      && ses.elapsed == 30 && ses.purchased == 35) = true := by decide +kernel
  cases hs : extendConfirmed.session 0 with
  | none => simp [hs] at key
  | some ses =>
    rw [hs, Option.any_some] at key
    simp only [Bool.and_eq_true, beq_iff_eq] at key
    obtain ⟨⟨⟨hm, hst⟩, he⟩, hp⟩ := key
    exact ⟨ses, rfl, hm, hst, he, hp⟩

theorem step_extendInDelivery : step extendInDelivery = .next extendConfirmed :=
  taking_of_live _ (s := { extendInDelivery with pending := [] }) (by decide +kernel)

/-- Refutes O60: `LedgerLaw` holds of `extendInDelivery`, where a session in ENDING has an open extension. The reply
confirms its EXTEND TAKEN, and the session is still in ENDING with 35 purchased minutes and 30 counted, which
`Session.Metered` forbids. No command sequence from reset leads there: the law is too weak to be kept step by step. -/
theorem not_stepKeepsMoney : ¬ Obligations.StepKeepsMoney := by
  intro keeps
  obtain ⟨-, live⟩ := keeps extendInDelivery extendConfirmed ledgerLaw_extendInDelivery step_extendInDelivery
  obtain ⟨ses, hs, hm, hst, he, hp⟩ := extendConfirmed_session
  obtain ⟨-, metered⟩ := live (by decide +kernel)
  have h := metered 0 ses hs hm
  rw [if_pos (.inr hst)] at h
  omega

end Sys2Proof.Machine
end

section
/-! The gateway line rows and the transmitter (R168, R173 to R175): when a frame begins, what the end of a sent reply
does, and how the waiting requests follow (R170, R171). -/

namespace Sys2Proof.Machine

variable {s : State}

/-- Whether the transmitter begins its head frame now (R173, R174). -/
def LinkState.begins (l : LinkState) : Bool := !l.transmit.isEmpty && !l.held && l.flow.isNone

/-- The transmitter runs on, or begins the head frame. -/
theorem startFrame_eq (s : State) :
    startFrame s = { s with link := { s.link with sending := s.link.sending || s.link.begins } } := by
  unfold startFrame LinkState.begins State.setLink
  cases hs : s.link.sending
  · cases hb : (!s.link.transmit.isEmpty && !s.link.held && s.link.flow.isNone)
    · rw [if_neg (by simp [hb])]; rw [Bool.false_or, ← hs]
    · rw [if_pos (by simpa using hb)]; rw [Bool.or_true]
  · rw [if_neg (by simp)]; rw [Bool.true_or, ← hs]

theorem startFrame_of_begins_sending (h : s.link.begins = true → s.link.sending = true) : startFrame s = s := by
  have same : (s.link.sending || s.link.begins) = s.link.sending := by
    cases hb : s.link.begins
    · simp
    · simp [h hb]
  rw [startFrame_eq, same]

/-! ## The line rows -/

/-- Settles O6: each row is its definition on a live part whose condition holds. -/
theorem gatewayLineRows : Obligations.GatewayLineRows := by
  unfold Obligations.GatewayLineRows
  refine ⟨fun s hl => ⟨fun hr => ⟨?hold, ?go⟩, fun hr => ?hunt⟩, fun s c hl hf hs hr => ?flow, fun s hl => ?reset⟩
  case hold =>
    rw [show exec .hold s = execHold s from rfl, execHold, taking_of_live _ hl]
    simp only [hr, takeHold, State.setLink, if_true]
  case go =>
    rw [show exec .go s = execGo s from rfl, execGo, taking_of_live _ hl]
    simp only [hr, takeGo, startFrame_eq, State.setLink, LinkState.begins, if_true, Bool.not_false, Bool.and_true]
  case hunt =>
    rw [show exec .huntingResumed s = execHuntingResumed s from rfl, execHuntingResumed, taking_of_live _ hl]
    simp only [hr, setReceiver, State.setLink, if_true]
  case flow =>
    rw [show exec .flowCharacterSent s = execFlowCharacterSent s from rfl, execFlowCharacterSent, taking_of_live _ hl]
    have hc : c.byte = if c = .hold then 0xF3#8 else 0xF1#8 := by cases c <;> rfl
    simp [hf, hs, hr, startFrame_eq, State.setLink, LinkState.begins, hc]
  case reset =>
    rw [show exec .linkReset s = execLinkReset s from rfl, execLinkReset, taking_of_live _ hl]
    rfl

/-! ## The end of a reply that is sent -/

/-- The state in which the reply's frame has left the queue and the next one has begun where it may (R173). -/
def State.replyGone (f : ReplyFrame) (rest : List ReplyFrame) (s : State) : State :=
  { s with
    lastSent := f.wire.map sentByte
    link := { s.link with
      transmit := rest, sending := !rest.isEmpty && !s.link.held && s.link.flow.isNone } }

theorem startFrame_replyGone (f : ReplyFrame) (rest : List ReplyFrame) (s : State) :
    startFrame (s.replyGone f rest) = s.replyGone f rest :=
  startFrame_of_begins_sending id

theorem startFrame_popFrame {f : ReplyFrame} {rest : List ReplyFrame} (ht : s.link.transmit = f :: rest) :
    startFrame (popFrame s) = s.replyGone f rest := by
  simp [popFrame, ht, startFrame_eq, State.setLink, LinkState.begins, State.replyGone]

/-- A reply that is no RESTART reply makes room, and the waiting requests are processed (R171, R173). -/
theorem frameSentOnLink_of_reply {f : ReplyFrame} {rest : List ReplyFrame} (ht : s.link.transmit = f :: rest)
    (hf : f.type ≠ 0x7F#8 ∨ f.status ≠ .ok) :
    frameSentOnLink s = startFrame (processAll (s.replyGone f rest)) := by
  have ahead : s.restartReplyAhead = false := by
    rcases hf with h | h <;> simp [State.restartReplyAhead, ht, h]
  rw [frameSentOnLink, if_neg (by simp [ahead]), startFrame_popFrame ht]

theorem exec_replyFrameSent {f : ReplyFrame} {rest : List ReplyFrame} (hl : s.live = true)
    (hs : s.link.sending = true) (ht : s.link.transmit = f :: rest) (hf : f.type ≠ 0x7F#8 ∨ f.status ≠ .ok) :
    exec .replyFrameSent s = .next (startFrame (processAll (s.fresh.replyGone f rest))) := by
  rw [show exec .replyFrameSent s = execReplyFrameSent s from rfl, execReplyFrameSent, taking_of_live _ hl,
    if_pos hs, frameSentOnLink_of_reply (s := s.fresh) ht hf]

/-! ## Requests that waited -/

/-- The state after one waiting request is processed, with the requests that still wait (R171). -/
def State.took (w : Waiting) (left : List Waiting) (s : State) : State :=
  let v := process w.req s
  { v.state with link := { v.state.link with buffer := left } }.answered
    { type := w.type, tag := w.tag, status := v.status, payload := v.payload }

/-- Processing a request keeps all of the link but the RESTARTED latch and the stop of processing. -/
theorem process_link (r : Request) (s : State) :
    ∃ restarted restarting, (process r s).state.link
      = { s.link with restarted := restarted, restarting := restarting } := by
  rw [(process_keeps r s).1]
  unfold linkAfter
  split
  · exact ⟨_, _, rfl⟩
  · split
    · exact ⟨_, _, rfl⟩
    · exact ⟨_, _, rfl⟩
  · exact ⟨_, _, rfl⟩

theorem took_link (w : Waiting) (left : List Waiting) (s : State) :
    (s.took w left).link.buffer = left
      ∧ (∃ f, (s.took w left).link.transmit = s.link.transmit ++ [f])
      ∧ (s.took w left).link.holding = s.link.holding
      ∧ ((s.took w left).link.begins = true → (s.took w left).link.sending = true) := by
  obtain ⟨a, b, h⟩ := process_link w.req s
  simp +contextual [State.took, State.answered, h, LinkState.begins]

theorem processHead_eq {w : Waiting} {rest : List Waiting} (hb : s.link.buffer = w :: rest) :
    processHead s = bufferEmptied (s.took w rest) := by
  have some_frame : ∀ (l : List ReplyFrame) f, (l ++ [f]).isEmpty = false := fun l f => by cases l <;> rfl
  simp [processHead, hb, placeReply, startFrame_eq, State.setLink, LinkState.begins, State.took, State.answered,
    some_frame]

theorem bufferEmptied_of_waiting (h : s.link.buffer ≠ []) : bufferEmptied s = s := by
  simp [bufferEmptied, h]

theorem bufferEmptied_of_empty (h : s.link.buffer = []) :
    bufferEmptied s
      = if s.link.holding then { s with link := { s.link with holding := false, flow := some .go } } else s := by
  simp [bufferEmptied, h, askFlow, State.setLink]

theorem startFrame_bufferEmptied (h : s.link.begins = true → s.link.sending = true) :
    startFrame (bufferEmptied s) = bufferEmptied s := by
  unfold bufferEmptied
  split
  · exact startFrame_of_begins_sending (by simp [askFlow, State.setLink, LinkState.begins])
  · exact startFrame_of_begins_sending h

theorem mayProcess_iff : s.mayProcess = true ↔
    s.link.buffer ≠ [] ∧ s.link.transmit.length < Config.transmitCapacity ∧ s.link.restarting = false := by
  simp [State.mayProcess, and_assoc]

/-- The one request that waits is processed, and the buffer is then empty. -/
theorem processAll_of_one {w : Waiting} (hb : s.link.buffer = [w]) (hm : s.mayProcess = true) :
    processAll s = bufferEmptied (s.took w []) := by
  rw [processAll, hb, List.length_singleton, processFor, if_pos hm, processHead_eq hb, processFor]

/-- Of two that wait the second follows the first while there is room (R171). -/
theorem processAll_of_two {w x : Waiting} (hb : s.link.buffer = [w, x]) (hm : s.mayProcess = true) :
    processAll s
      = if (s.took w [x]).mayProcess then bufferEmptied ((s.took w [x]).took x []) else s.took w [x] := by
  obtain ⟨hx, -⟩ := took_link w [x] s
  have first : processHead s = s.took w [x] := by
    rw [processHead_eq hb, bufferEmptied_of_waiting (by simp [hx])]
  rw [processAll, hb, List.length_cons, List.length_singleton, processFor, if_pos hm, first, processFor]
  split
  · rw [processHead_eq hx, processFor]
  · rfl

/-- Settles O7: the frame leaves the queue, and then the requests that wait are processed in turn while they may. -/
theorem sentReplyLeavesQueue : Obligations.SentReplyLeavesQueue := by
  unfold Obligations.SentReplyLeavesQueue
  refine ⟨fun s f rest hl hs ht hf hnone => ?none, fun s f rest w hl hs ht hf hb hr hroom => ?one,
    fun s f rest w x hl hs ht hf hb hr hroom => ?two⟩
  all_goals rw [exec_replyFrameSent hl hs ht hf]
  case none =>
    have idle : (s.fresh.replyGone f rest).mayProcess = false := by
      rcases hnone with h | h <;> simp [State.mayProcess, State.replyGone, h]
    rw [processAll_of_not_mayProcess idle, startFrame_replyGone]
    rfl
  case one =>
    intro s1 v u
    have may : (s.fresh.replyGone f rest).mayProcess = true :=
      mayProcess_iff.mpr ⟨by simp [State.replyGone, hb], hroom, hr⟩
    obtain ⟨hbuf, -, hhold, hbegin⟩ := took_link w [] (s.fresh.replyGone f rest)
    rw [processAll_of_one (s := s.fresh.replyGone f rest) hb may, startFrame_bufferEmptied hbegin,
      bufferEmptied_of_empty hbuf, hhold]
    rfl
  case two =>
    intro s1 taken u z
    have may : (s.fresh.replyGone f rest).mayProcess = true :=
      mayProcess_iff.mpr ⟨by simp [State.replyGone, hb], hroom, hr⟩
    obtain ⟨hbuf, ⟨g, htr⟩, hhold, hbegin⟩ := took_link w [x] (s.fresh.replyGone f rest)
    have hlen : u.link.transmit.length = rest.length + 1 :=
      (congrArg List.length htr).trans (List.length_append ..)
    rw [processAll_of_two (s := s.fresh.replyGone f rest) hb may]
    refine ⟨fun hblocked => ?_, fun hroom2 hr2 => ?_⟩
    · have stop : ((s.fresh.replyGone f rest).took w [x]).mayProcess = false :=
        mayProcess_of_blocked (hblocked.imp_left fun h => hlen ▸ h)
      rw [if_neg (by simpa using stop), startFrame_of_begins_sending hbegin]
      rfl
    · have go : ((s.fresh.replyGone f rest).took w [x]).mayProcess = true :=
        mayProcess_iff.mpr ⟨List.ne_nil_of_length_pos (hbuf ▸ Nat.one_pos), hlen ▸ hroom2, hr2⟩
      obtain ⟨hbuf2, -, hhold2, hbegin2⟩ := took_link x [] ((s.fresh.replyGone f rest).took w [x])
      rw [if_pos go, startFrame_bufferEmptied hbegin2, bufferEmptied_of_empty hbuf2, hhold2, hhold]
      rfl

end Sys2Proof.Machine
end

section
/-! Request frames (R167 to R172, R196): a request is read back from its bytes, a payload is a request exactly when its
length is one that its type allows, and what the frame receiver does with the bytes of a whole frame. -/

namespace Sys2Proof.Machine

variable {s : State}

/-! ## Fields of more bytes (R193) -/

theorem join16_word16 (w : BitVec 16) : join16 (w.extractLsb' 8 8) (w.extractLsb' 0 8) = w := by
  refine BitVec.eq_of_getLsbD_eq fun i hi => ?_
  rw [join16, BitVec.getLsbD_append]
  simp only [BitVec.getLsbD_extractLsb']
  grind

theorem join24_word24 (w : BitVec 24) :
    join24 (w.extractLsb' 16 8) (w.extractLsb' 8 8) (w.extractLsb' 0 8) = w := by
  refine BitVec.eq_of_getLsbD_eq fun i hi => ?_
  rw [join24, BitVec.getLsbD_append, BitVec.getLsbD_append]
  simp only [BitVec.getLsbD_extractLsb']
  grind

theorem joinId_idBytes (w : CardId) :
    joinId (w.extractLsb' 56 8) (w.extractLsb' 48 8) (w.extractLsb' 40 8) (w.extractLsb' 32 8)
      (w.extractLsb' 24 8) (w.extractLsb' 16 8) (w.extractLsb' 8 8) (w.extractLsb' 0 8) = w := by
  refine BitVec.eq_of_getLsbD_eq fun i hi => ?_
  rw [joinId]
  iterate 7 rw [BitVec.getLsbD_append]
  simp only [BitVec.getLsbD_extractLsb']
  grind

theorem toNat_num1 {n : Nat} (h : n < 256) : (num1 n).toNat = n := by
  simp [num1, Nat.mod_eq_of_lt h]

/-! ## A request is read back from its payload -/

theorem parsePairs_flatMap (pairs : List (Byte × BitVec 16)) :
    parsePairs (pairs.flatMap fun x => x.1 :: word16 x.2) = pairs := by
  induction pairs with
  | nil => rfl
  | cons x xs ih =>
    change (x.1, join16 _ _) :: parsePairs (xs.flatMap fun x => x.1 :: word16 x.2) = x :: xs
    rw [join16_word16, ih]

theorem parseBands_flatMap (bands : List (BitVec 16 × Byte × Byte)) :
    parseBands (bands.flatMap fun b => word16 b.1 ++ [b.2.1, b.2.2]) = bands := by
  induction bands with
  | nil => rfl
  | cons x xs ih =>
    change (join16 _ _, x.2.1, x.2.2) :: parseBands (xs.flatMap fun b => word16 b.1 ++ [b.2.1, b.2.2]) = x :: xs
    rw [join16_word16, ih]

theorem length_flatMap_pairs (pairs : List (Byte × BitVec 16)) :
    (pairs.flatMap fun x => x.1 :: word16 x.2).length = 3 * pairs.length := by
  simp [word16, List.length_flatMap, Nat.mul_comm]

theorem length_flatMap_bands (bands : List (BitVec 16 × Byte × Byte)) :
    (bands.flatMap fun b => word16 b.1 ++ [b.2.1, b.2.2]).length = 4 * bands.length := by
  simp [word16, List.length_flatMap, Nat.mul_comm]

/-- The payload of a request that fits a frame spells that request (R196). -/
theorem parseRequest_payload {r : Request} (hw : Request.wf r = true) :
    parseRequest (Request.type r) (Request.payload r) = r := by
  cases r with
  | badFrame => exact absurd hw Bool.false_ne_true
  | showText addr text =>
    have h : 2 + text.length ≤ 248 := of_decide_eq_true hw
    simp [parseRequest, Request.type, Request.payload, parseShowText, toNat_num1 (show text.length < 256 by omega)]
  | loadPrice cls program base ph pc n pairs =>
    have h : 10 + 3 * pairs.length ≤ 248 := of_decide_eq_true hw
    have hc := toNat_num1 (show pairs.length < 256 by omega)
    have hlen := length_flatMap_pairs pairs
    have hpairs := parsePairs_flatMap pairs
    simp only [parseRequest, Request.type, Request.payload]
    simp only [word16] at hlen hpairs ⊢
    simp [parseLoadPrice, hc, hlen, hpairs, join16_word16, -List.length_flatMap]
  | loadBands bands =>
    have h : 1 + 4 * bands.length ≤ 248 := of_decide_eq_true hw
    have hc := toNat_num1 (show bands.length < 256 by omega)
    simp [parseRequest, Request.type, Request.payload, parseLoadBands, hc, length_flatMap_bands,
      parseBands_flatMap, -List.length_flatMap]
  | setConfig => simp [parseRequest, Request.type, Request.payload, parseSetConfig, word16, join16_word16]
  | setClock => simp [parseRequest, Request.type, Request.payload, parseSetClock, word16, join16_word16]
  | addCard =>
    simp [parseRequest, Request.type, Request.payload, parseAddCard, idBytes, word24, word16, joinId_idBytes,
      join24_word24, join16_word16]
  | setCard =>
    simp [parseRequest, Request.type, Request.payload, parseSetCard, idBytes, word16, joinId_idBytes, join16_word16]
  | creditCard | debitCard =>
    simp [parseRequest, Request.type, Request.payload, parseIdAmount, idBytes, word24, joinId_idBytes, join24_word24]
  | blockCard | unblockCard | readCard | removeCard =>
    simp [parseRequest, Request.type, Request.payload, parseId, idBytes, joinId_idBytes]
  | releaseThrough =>
    simp [parseRequest, Request.type, Request.payload, parseReleaseThrough, word16, join16_word16]
  | _ => rfl

/-- A request that fits a frame has a payload of at most 248 bytes (R167). -/
theorem length_payload_le {r : Request} (hw : Request.wf r = true) : (Request.payload r).length ≤ 248 := by
  cases r with
  | showText addr text =>
    have h : 2 + text.length ≤ 248 := of_decide_eq_true hw
    simp [Request.payload]; omega
  | loadPrice cls program base ph pc n pairs =>
    have h : 10 + 3 * pairs.length ≤ 248 := of_decide_eq_true hw
    have hl := length_flatMap_pairs pairs
    simp only [Request.payload, List.length_append, hl]
    simp [word16]; omega
  | loadBands bands =>
    have h : 1 + 4 * bands.length ≤ 248 := of_decide_eq_true hw
    have hl := length_flatMap_bands bands
    simp only [Request.payload, List.length_cons, hl]; omega
  | _ => simp [Request.payload, idBytes, word16, word24]

/-! ## The frame receiver -/

/-- What the last byte of a frame brings: the frame's request is taken, or the frame is discarded (R168, R169). -/
def closeFrame (bytes : List LineByte) (s : State) : State :=
  match frameRequest bytes with
  | none => s
  | some w => takeRequestFrame w s

theorem receiveByte_assembling (old : List LineByte) (b : LineByte) (s : State) :
    receiveByte (setReceiver (.assembling old) s) b = assembleByte old b (setReceiver (.assembling old) s) := rfl

/-- One byte more, with the first byte of the frame in range (R169). -/
theorem assembleByte_eq {old : List LineByte} {b first : LineByte} (hf : (old ++ [b]).head? = some first)
    (hr : lengthInRange first.data.toNat = true) (s : State) :
    assembleByte old b s
      = if old.length + 1 < first.data.toNat + 3 then setReceiver (.assembling (old ++ [b])) s
        else closeFrame (old ++ [b]) (setReceiver .hunting s) := by
  unfold assembleByte
  dsimp only
  split
  · next h => simp at h
  · next x rest h =>
    obtain rfl : x = first := by simpa [h] using hf
    rw [if_neg (by simp [hr]), List.length_append, List.length_singleton]
    rfl

/-- The bytes of a whole frame are assembled, and its last byte closes it. -/
theorem foldl_receiveByte_assembling {first : LineByte} (hr : lengthInRange first.data.toNat = true) (s : State) :
    ∀ (rest old : List LineByte), rest ≠ [] → (old ++ rest).head? = some first →
      (old ++ rest).length = first.data.toNat + 3 →
      rest.foldl receiveByte (setReceiver (.assembling old) s) = closeFrame (old ++ rest) (setReceiver .hunting s) := by
  intro rest
  induction rest with
  | nil => exact fun old h => absurd rfl h
  | cons b rest ih =>
    intro old _ hf hlen
    have hhead : (old ++ [b]).head? = some first := by cases old <;> simpa using hf
    have hcount : old.length + 1 + rest.length = first.data.toNat + 3 := by
      simp at hlen; omega
    rw [List.foldl_cons, receiveByte_assembling, assembleByte_eq hhead hr]
    cases rest with
    | nil =>
      rw [if_neg (by simp at hcount; omega)]
      rfl
    | cons c rest =>
      rw [if_pos (by simp at hcount; omega)]
      have step := ih (old ++ [b]) (by simp) (by simpa using hf) (by simpa using hlen)
      rw [List.append_assoc, List.singleton_append] at step
      exact step

theorem setReceiver_hunting (h : s.link.receiver = .hunting) : setReceiver .hunting s = s := by
  have same : { s.link with receiver := .hunting } = s.link := by rw [← h]
  rw [setReceiver, State.setLink, same]

/-- A SYNC and the bytes of a whole frame close the frame (R168). -/
theorem receiveBytes_frame {bytes : List LineByte} (hc : completeFrame bytes = true)
    (h : s.link.receiver = .hunting) :
    receiveBytes ({ data := syncByte, framing := false } :: bytes) s = closeFrame bytes s := by
  cases bytes with
  | nil => exact absurd hc Bool.false_ne_true
  | cons first rest =>
    simp only [completeFrame, Bool.and_eq_true, decide_eq_true_eq] at hc
    obtain ⟨⟨hlo, hhi⟩, hlen⟩ := hc
    have hr : lengthInRange first.data.toNat = true := by simp [lengthInRange, hlo, hhi]
    have start : receiveByte s { data := syncByte, framing := false } = setReceiver (.assembling []) s := by
      simp [receiveByte, h, huntByte]
    rw [receiveBytes, List.foldl_cons, start, foldl_receiveByte_assembling hr s _ _ (by simp) rfl hlen,
      setReceiver_hunting h]
    rfl

theorem exec_gatewayFrameReceived {times : List LineTime} (hl : s.live = true) (h : s.link.receiver = .hunting)
    (hc : completeFrame (lineBytes times) = true) :
    exec (.gatewayFrameReceived times) s = .next (closeFrame (lineBytes times) s.fresh) := by
  rw [show exec (.gatewayFrameReceived times) s = execGatewayFrameReceived times s from rfl,
    execGatewayFrameReceived, taking_of_live _ hl, receiveBytes_frame (s := s.fresh) hc h]

/-! ## Request frames -/

theorem completeFrame_requestBytes {type tag : Byte} {payload : List Byte} (h : payload.length ≤ 248) :
    completeFrame ((requestBytes type tag payload).map fun b => { data := b, framing := false }) = true := by
  have hn := toNat_num1 (show payload.length + 2 < 256 by omega)
  simp only [requestBytes, List.cons_append, List.map_cons, completeFrame, hn]
  simp [word16]
  omega

/-- The CRC of a frame of bytes without a framing error is right, and its type, tag and payload are read (R168). -/
theorem frameRequest_requestBytes (type tag : Byte) (payload : List Byte) :
    frameRequest ((requestBytes type tag payload).map fun b => { data := b, framing := false })
      = some { type := type, tag := tag, req := parseRequest type payload } := by
  have hdata (bs : List Byte) : ((bs.map fun b => ({ data := b, framing := false } : LineByte)).map (·.data)) = bs := by
    simp [Function.comp_def]
  have hcut (body : List Byte) (c : BitVec 16) : (body ++ word16 c).dropLast.dropLast = body := by
    simp [word16]
  have hbody : (requestBytes type tag payload).dropLast.dropLast
      = num1 (payload.length + 2) :: type :: tag :: payload := hcut _ _
  have hcrc : (requestBytes type tag payload).drop (num1 (payload.length + 2) :: type :: tag :: payload).length
      = word16 (crc16 (num1 (payload.length + 2) :: type :: tag :: payload)) := List.drop_left
  unfold frameRequest
  rw [if_neg (by simp)]
  dsimp only
  rw [hdata, hbody, hcrc, if_pos rfl]

/-! ## Bytes on the line (R167) -/

theorem byteTime_positions (b : LineByte) :
    (byteTime b).getLsbD 0 = false ∧ (∀ i < 8, (byteTime b).getLsbD (i + 1) = b.data.getLsbD i)
      ∧ (byteTime b).getLsbD 9 = !b.framing := by
  have all : ∀ (d : Byte) (f : Bool), (byteTime ⟨d, f⟩).getLsbD 0 = false
      ∧ (∀ i < 8, (byteTime ⟨d, f⟩).getLsbD (i + 1) = d.getLsbD i) ∧ (byteTime ⟨d, f⟩).getLsbD 9 = !f := by
    decide +kernel
  exact all b.data b.framing

theorem lineBytes_cons (t : LineTime) (rest : List LineTime) :
    lineBytes (t :: rest) = if t.getLsbD 0 then lineBytes rest else sampleByte t :: lineBytes rest := by
  unfold lineBytes startsAt
  cases h : t.getLsbD 0
  · rw [List.filter_cons_of_pos (by rw [h]; rfl), List.map_cons, if_neg Bool.false_ne_true]
  · rw [List.filter_cons_of_neg (by rw [h]; exact Bool.false_ne_true), if_pos rfl]

theorem sampleByte_data (t : LineTime) (i : Nat) (hi : i < 8) : (sampleByte t).data.getLsbD i = t.getLsbD (i + 1) := by
  rw [sampleByte, BitVec.getLsbD_extractLsb', Nat.add_comm]
  simp [hi]

/-- Settles O4: the receiver closes the frame with its request, which is what the request's row takes. -/
theorem receivedFrameIsItsRequest : Obligations.ReceivedFrameIsItsRequest := by
  unfold Obligations.ReceivedFrameIsItsRequest
  refine ⟨fun r tag s hw hl h => ⟨takeRequestFrame (Request.waiting r tag) s.fresh, ?_, ?_⟩, byteTime_positions,
    fun t rest => ⟨fun ht => ?_, fun ht => ⟨sampleByte t, ?_, sampleByte_data t, rfl⟩⟩⟩
  · have hbytes : lineBytes (Request.line tag r)
        = (requestBytes (Request.type r) tag (Request.payload r)).map fun b => { data := b, framing := false } :=
      lineBytes_map_sentByte _
    have hc := completeFrame_requestBytes (type := Request.type r) (tag := tag) (length_payload_le hw)
    rw [exec_gatewayFrameReceived hl h (hbytes ▸ hc), hbytes, closeFrame, frameRequest_requestBytes,
      parseRequest_payload hw]
    rfl
  · rw [exec_row r tag hw, taking_of_live _ hl]
  · rw [lineBytes_cons, if_pos ht]
  · rw [lineBytes_cons, if_neg (by rw [ht]; exact Bool.false_ne_true)]

/-! ## Frames that are discarded -/

theorem frameRequest_of_framing {bytes : List LineByte} (h : bytes.any (·.framing) = true) :
    frameRequest bytes = none := by rw [frameRequest, if_pos h]

theorem frameRequest_of_wrong_crc {bytes : List LineByte}
    (h : word16 (crc16 ((bytes.map (·.data)).take (bytes.length - 2))) ≠ (bytes.map (·.data)).drop (bytes.length - 2)) :
    frameRequest bytes = none := by
  have hbody : (bytes.map (·.data)).dropLast.dropLast = (bytes.map (·.data)).take (bytes.length - 2) := by
    rw [List.dropLast_eq_take, List.dropLast_eq_take, List.take_take]
    congr 1
    simp
    omega
  have hlen : ((bytes.map (·.data)).take (bytes.length - 2)).length = bytes.length - 2 := by simp
  unfold frameRequest
  split
  · rfl
  · dsimp only
    rw [hbody, hlen, if_neg h]

theorem receiveBytes_bad_length {len : Byte} (hlen : lengthInRange len.toNat = false)
    (h : s.link.receiver = .hunting) :
    receiveBytes [{ data := syncByte, framing := false }, { data := len, framing := false }] s = s := by
  have start : receiveByte s { data := syncByte, framing := false } = setReceiver (.assembling []) s := by
    simp [receiveByte, h, huntByte]
  rw [receiveBytes, List.foldl_cons, start, List.foldl_cons, receiveByte_assembling, List.foldl_nil]
  simp only [assembleByte, List.nil_append, hlen, Bool.not_false, if_true]
  exact setReceiver_hunting h

/-- Settles O5: a faulty frame carries no request, so that closing it changes nothing. -/
theorem faultyFrameDiscarded : Obligations.FaultyFrameDiscarded := by
  unfold Obligations.FaultyFrameDiscarded
  refine fun s hl => ⟨fun times => ?_, fun len hlen h => ?_, fun got h => ?_⟩
  · intro bytes hc h hbad
    have hnone : frameRequest (lineBytes times) = none :=
      hbad.elim frameRequest_of_framing frameRequest_of_wrong_crc
    rw [exec_gatewayFrameReceived hl h hc, closeFrame, hnone]
  · have hrange : lengthInRange len.toNat = false := by
      simp only [lengthInRange, Bool.and_eq_false_iff, decide_eq_false_iff_not]; omega
    rw [show exec (.frameLengthOutOfRange len) s = execFrameLengthOutOfRange len s from rfl,
      execFrameLengthOutOfRange, taking_of_live _ hl, if_neg (by simp [hrange]),
      receiveBytes_bad_length (s := s.fresh) hrange h]
  · rw [show exec .gatewayGap s = execGatewayGap s from rfl, execGatewayGap, taking_of_live _ hl]
    simp only [h, setReceiver, State.setLink]

end Sys2Proof.Machine
end

section
/-! Which payloads are requests (R172, R196): each parser refuses exactly the lengths that its type does not allow. -/

namespace Sys2Proof.Machine

variable {s : State}

/-! ## The parsers -/

/-- The values of a parser: it refuses a payload exactly when its length is another than `n`. -/
def TakesLength (parse : Request → List Byte → Request) (n : Nat) : Prop :=
  ∀ (t : Byte) (pl : List Byte), parse (.badFrame t) pl = .badFrame t ↔ pl.length ≠ n

theorem takesLength_none {r : Request} (hr : ∀ t, r ≠ .badFrame t) : TakesLength (parseNone r) 0 := fun t pl => by
  match pl with
  | [] => simp [parseNone, hr]
  | _ :: _ => simp [parseNone]

theorem takesLength_byte {f : Byte → Request} (hf : ∀ a t, f a ≠ .badFrame t) : TakesLength (parseByte f) 1 :=
  fun t pl => by
    match pl with
    | [] | _ :: _ :: _ => simp [parseByte]
    | [a] => simp [parseByte, hf]

theorem takesLength_two {f : Byte → Byte → Request} (hf : ∀ a b t, f a b ≠ .badFrame t) :
    TakesLength (parseTwo f) 2 := fun t pl => by
  match pl with
  | [] | [_] | _ :: _ :: _ :: _ => simp [parseTwo]
  | [a, b] => simp [parseTwo, hf]

/-- A parser whose one pattern is a list of `n` bytes. -/
theorem takesLength_of {parse : Request → List Byte → Request} {n : Nat}
    (hit : ∀ t pl, pl.length = n → parse (.badFrame t) pl ≠ .badFrame t)
    (miss : ∀ t pl, pl.length ≠ n → parse (.badFrame t) pl = .badFrame t) : TakesLength parse n :=
  fun t pl => ⟨fun h hlen => hit t pl hlen h, miss t pl⟩

theorem takesLength_setConfig : TakesLength parseSetConfig 13 := takesLength_of
  (fun t pl h => by
    match pl, h with
    | [_, _, _, _, _, _, _, _, _, _, _, _, _], _ => simp [parseSetConfig])
  (fun t pl h => by
    unfold parseSetConfig
    split
    · exact absurd rfl h
    · rfl)

theorem takesLength_setClock : TakesLength parseSetClock 3 := takesLength_of
  (fun t pl h => by match pl, h with | [_, _, _], _ => simp [parseSetClock])
  (fun t pl h => by
    unfold parseSetClock
    split
    · exact absurd rfl h
    · rfl)

theorem takesLength_loadMachine : TakesLength parseLoadMachine 7 := takesLength_of
  (fun t pl h => by match pl, h with | [_, _, _, _, _, _, _], _ => simp [parseLoadMachine])
  (fun t pl h => by
    unfold parseLoadMachine
    split
    · exact absurd rfl h
    · rfl)

theorem takesLength_addCard : TakesLength parseAddCard 15 := takesLength_of
  (fun t pl h => by
    match pl, h with
    | [_, _, _, _, _, _, _, _, _, _, _, _, _, _, _], _ => simp [parseAddCard])
  (fun t pl h => by
    unfold parseAddCard
    split
    · exact absurd rfl h
    · rfl)

theorem takesLength_setCard : TakesLength parseSetCard 12 := takesLength_of
  (fun t pl h => by match pl, h with | [_, _, _, _, _, _, _, _, _, _, _, _], _ => simp [parseSetCard])
  (fun t pl h => by
    unfold parseSetCard
    split
    · exact absurd rfl h
    · rfl)

theorem takesLength_loadFaultClass : TakesLength parseLoadFaultClass 4 := takesLength_of
  (fun t pl h => by match pl, h with | [_, _, _, _], _ => simp [parseLoadFaultClass])
  (fun t pl h => by
    unfold parseLoadFaultClass
    split
    · exact absurd rfl h
    · rfl)

theorem takesLength_releaseThrough : TakesLength parseReleaseThrough 2 := takesLength_of
  (fun t pl h => by match pl, h with | [_, _], _ => simp [parseReleaseThrough])
  (fun t pl h => by
    unfold parseReleaseThrough
    split
    · exact absurd rfl h
    · rfl)

theorem takesLength_id {f : CardId → Request} (hf : ∀ a t, f a ≠ .badFrame t) : TakesLength (parseId f) 8 :=
  takesLength_of
    (fun t pl h => by match pl, h with | [_, _, _, _, _, _, _, _], _ => simp [parseId, hf])
    (fun t pl h => by
      unfold parseId
      split
      · exact absurd rfl h
      · rfl)

theorem takesLength_idAmount {f : CardId → BitVec 24 → Request} (hf : ∀ a b t, f a b ≠ .badFrame t) :
    TakesLength (parseIdAmount f) 11 :=
  takesLength_of
    (fun t pl h => by match pl, h with | [_, _, _, _, _, _, _, _, _, _, _], _ => simp [parseIdAmount, hf])
    (fun t pl h => by
      unfold parseIdAmount
      split
      · exact absurd rfl h
      · rfl)

/-- A payload sized by the count at `start - 1`: so many entries of `each` bytes follow it. -/
def Sized (payload : List Byte) (start each : Nat) : Prop :=
  ∃ count : Byte, payload[start - 1]? = some count ∧ payload.length = start + each * count.toNat

theorem parseShowText_bad (t : Byte) (pl : List Byte) :
    parseShowText (.badFrame t) pl = .badFrame t ↔ ¬ Sized pl 2 1 := by
  match pl with
  | [] | [_] => simp [parseShowText, Sized]
  | addr :: count :: text =>
    have h : Sized (addr :: count :: text) 2 1 ↔ text.length = count.toNat := by simp [Sized]; omega
    by_cases hc : text.length = count.toNat <;> simp [parseShowText, h, hc]

theorem parseLoadBands_bad (t : Byte) (pl : List Byte) :
    parseLoadBands (.badFrame t) pl = .badFrame t ↔ ¬ Sized pl 1 4 := by
  match pl with
  | [] => simp [parseLoadBands, Sized]
  | count :: rest =>
    have h : Sized (count :: rest) 1 4 ↔ rest.length = 4 * count.toNat := by simp [Sized]; omega
    by_cases hc : rest.length = 4 * count.toNat <;> simp [parseLoadBands, h, hc]

theorem parseLoadPrice_bad (t : Byte) (pl : List Byte) :
    parseLoadPrice (.badFrame t) pl = .badFrame t ↔ ¬ Sized pl 10 3 := by
  match pl with
  | [] | [_] | [_, _] | [_, _, _] | [_, _, _, _] | [_, _, _, _, _] | [_, _, _, _, _, _] | [_, _, _, _, _, _, _]
  | [_, _, _, _, _, _, _, _] | [_, _, _, _, _, _, _, _, _] => simp [parseLoadPrice, Sized]
  | a :: b :: c :: d :: e :: f :: g :: h :: i :: count :: rest =>
    have hs : Sized (a :: b :: c :: d :: e :: f :: g :: h :: i :: count :: rest) 10 3
        ↔ rest.length = 3 * count.toNat := by simp [Sized]; omega
    by_cases hc : rest.length = 3 * count.toNat <;> simp [parseLoadPrice, hs, hc]

/-! ## The table of R196 -/

/-- The types whose requests have one length, with that length (R196). -/
def fixedLengths : List (Byte × Nat) :=
  [(0x01#8, 0), (0x02#8, 13), (0x03#8, 3), (0x10#8, 7), (0x11#8, 1), (0x12#8, 2), (0x13#8, 1),
   (0x18#8, 1), (0x19#8, 1), (0x21#8, 2), (0x30#8, 15), (0x31#8, 11), (0x32#8, 11), (0x33#8, 12),
   (0x34#8, 8), (0x35#8, 8), (0x36#8, 8), (0x37#8, 8), (0x40#8, 1), (0x41#8, 1), (0x50#8, 4),
   (0x51#8, 1), (0x52#8, 0), (0x60#8, 0), (0x61#8, 2), (0x70#8, 2), (0x7F#8, 0)]

/-- A payload that its type allows (R196). -/
def Allowed (type : Byte) (payload : List Byte) : Prop :=
  (type, payload.length) ∈ fixedLengths
    ∨ (type = 0x1A#8 ∧ Sized payload 2 1) ∨ (type = 0x20#8 ∧ Sized payload 10 3) ∨ (type = 0x22#8 ∧ Sized payload 1 4)

theorem allowed_fixed {type : Byte} {n : Nat} (pl : List Byte)
    (h : ∀ k, (type, k) ∈ fixedLengths ↔ k = n) (hs : type ≠ 0x1A#8 ∧ type ≠ 0x20#8 ∧ type ≠ 0x22#8) :
    Allowed type pl ↔ pl.length = n := by
  obtain ⟨h1, h2, h3⟩ := hs
  simp [Allowed, h, h1, h2, h3]

theorem branch_iff {type c : Byte} {a b x : Request} {P : Prop} (hit : type = c → (a = x ↔ P))
    (miss : type ≠ c → (b = x ↔ P)) : (if type = c then a else b) = x ↔ P := by
  by_cases h : type = c
  · rw [if_pos h]; exact hit h
  · rw [if_neg h]; exact miss h

/-- The branch of a type whose requests have one length. -/
theorem fixed_branch {parse : Request → List Byte → Request} {n : Nat} (hp : TakesLength parse n) {type c : Byte}
    {pl : List Byte} {b : Request} (h : ∀ k, (c, k) ∈ fixedLengths ↔ k = n)
    (hs : c ≠ 0x1A#8 ∧ c ≠ 0x20#8 ∧ c ≠ 0x22#8) (miss : type ≠ c → (b = .badFrame type ↔ ¬ Allowed type pl)) :
    (if type = c then parse (.badFrame type) pl else b) = .badFrame type ↔ ¬ Allowed type pl :=
  branch_iff (fun htype => by subst htype; rw [hp, allowed_fixed pl h hs]) miss

theorem allowed_showText (pl : List Byte) : Allowed 0x1A#8 pl ↔ Sized pl 2 1 := by simp [Allowed, fixedLengths]

theorem allowed_loadPrice (pl : List Byte) : Allowed 0x20#8 pl ↔ Sized pl 10 3 := by simp [Allowed, fixedLengths]

theorem allowed_loadBands (pl : List Byte) : Allowed 0x22#8 pl ↔ Sized pl 1 4 := by simp [Allowed, fixedLengths]

theorem allowed_type_mem {type : Byte} {pl : List Byte} (h : Allowed type pl) :
    type ∈ fixedLengths.map (·.1) ++ [0x1A#8, 0x20#8, 0x22#8] := by
  rcases h with h | ⟨rfl, -⟩ | ⟨rfl, -⟩ | ⟨rfl, -⟩
  · exact List.mem_append_left _ (List.mem_map_of_mem h)
  all_goals decide

/-- A frame is no request exactly when its type does not allow its payload (R172, R196): by the branches of
`parseRequest`, one for each type. -/
theorem parseRequest_bad (type : Byte) (pl : List Byte) :
    parseRequest type pl = .badFrame type ↔ ¬ Allowed type pl := by
  unfold parseRequest
  dsimp only
  refine fixed_branch (takesLength_none (by simp)) (by simp [fixedLengths]) (by decide) fun _ => ?_
  refine fixed_branch takesLength_setConfig (by simp [fixedLengths]) (by decide) fun _ => ?_
  refine fixed_branch takesLength_setClock (by simp [fixedLengths]) (by decide) fun _ => ?_
  refine fixed_branch takesLength_loadMachine (by simp [fixedLengths]) (by decide) fun _ => ?_
  refine fixed_branch (takesLength_byte (by simp)) (by simp [fixedLengths]) (by decide) fun _ => ?_
  refine fixed_branch (takesLength_two (by simp)) (by simp [fixedLengths]) (by decide) fun _ => ?_
  refine fixed_branch (takesLength_byte (by simp)) (by simp [fixedLengths]) (by decide) fun _ => ?_
  refine fixed_branch (takesLength_byte (by simp)) (by simp [fixedLengths]) (by decide) fun _ => ?_
  refine fixed_branch (takesLength_byte (by simp)) (by simp [fixedLengths]) (by decide) fun _ => ?_
  refine branch_iff (fun h => by rw [h, parseShowText_bad, allowed_showText]) fun _ => ?_
  refine branch_iff (fun h => by rw [h, parseLoadPrice_bad, allowed_loadPrice]) fun _ => ?_
  refine fixed_branch (takesLength_two (by simp)) (by simp [fixedLengths]) (by decide) fun _ => ?_
  refine branch_iff (fun h => by rw [h, parseLoadBands_bad, allowed_loadBands]) fun _ => ?_
  refine fixed_branch takesLength_addCard (by simp [fixedLengths]) (by decide) fun _ => ?_
  refine fixed_branch (takesLength_idAmount (by simp)) (by simp [fixedLengths]) (by decide) fun _ => ?_
  refine fixed_branch (takesLength_idAmount (by simp)) (by simp [fixedLengths]) (by decide) fun _ => ?_
  refine fixed_branch takesLength_setCard (by simp [fixedLengths]) (by decide) fun _ => ?_
  refine fixed_branch (takesLength_id (by simp)) (by simp [fixedLengths]) (by decide) fun _ => ?_
  refine fixed_branch (takesLength_id (by simp)) (by simp [fixedLengths]) (by decide) fun _ => ?_
  refine fixed_branch (takesLength_id (by simp)) (by simp [fixedLengths]) (by decide) fun _ => ?_
  refine fixed_branch (takesLength_id (by simp)) (by simp [fixedLengths]) (by decide) fun _ => ?_
  refine fixed_branch (takesLength_byte (by simp)) (by simp [fixedLengths]) (by decide) fun _ => ?_
  refine fixed_branch (takesLength_byte (by simp)) (by simp [fixedLengths]) (by decide) fun _ => ?_
  refine fixed_branch takesLength_loadFaultClass (by simp [fixedLengths]) (by decide) fun _ => ?_
  refine fixed_branch (takesLength_byte (by simp)) (by simp [fixedLengths]) (by decide) fun _ => ?_
  refine fixed_branch (takesLength_none (by simp)) (by simp [fixedLengths]) (by decide) fun _ => ?_
  refine fixed_branch (takesLength_none (by simp)) (by simp [fixedLengths]) (by decide) fun _ => ?_
  refine fixed_branch takesLength_releaseThrough (by simp [fixedLengths]) (by decide) fun _ => ?_
  refine fixed_branch (takesLength_two (by simp)) (by simp [fixedLengths]) (by decide) fun _ => ?_
  refine fixed_branch (takesLength_none (by simp)) (by simp [fixedLengths]) (by decide) fun _ => ?_
  refine iff_of_true rfl fun h => ?_
  have hm := allowed_type_mem h
  fin_cases hm <;> contradiction

/-- One request of each type. -/
def requestOfEachType : List Request :=
  [.status, .setConfig 0 0 0 0 0 0 0 0 0 0, .setClock 0 0, .loadMachine 0 0 0 0 0 0 0, .removeMachine 0,
   .service 0 0, .readMachines 0, .loadTerminal 0, .removeTerminal 0, .showText 0 [],
   .loadPrice 0 0 0 0 0 0 [], .removePrice 0 0, .loadBands [], .addCard 0 0 0 0 0, .creditCard 0 0,
   .debitCard 0 0, .setCard 0 0 0 0, .blockCard 0, .unblockCard 0, .removeCard 0, .readCard 0, .setBudget 0,
   .releaseHeat 0, .loadFaultClass 0 0 0 0, .clearFault 0, .readFaults, .readSettlements, .releaseThrough 0,
   .forceEnd 0 0, .restart]

theorem allowed_type {type : Byte} {pl : List Byte} (h : Allowed type pl) :
    ∃ r, Request.wf r = true ∧ Request.type r = type := by
  have each : ∀ c ∈ fixedLengths.map (·.1) ++ [0x1A#8, 0x20#8, 0x22#8],
      ∃ r ∈ requestOfEachType, Request.wf r = true ∧ Request.type r = c := by decide
  obtain ⟨r, -, hw, ht⟩ := each type (allowed_type_mem h)
  exact ⟨r, hw, ht⟩

/-- Settles O8: `parseRequest_bad` is its last clause, the first follows from it, and a request that is none is
refused by the link. -/
theorem badFrameAnswered : Obligations.BadFrameAnswered := by
  unfold Obligations.BadFrameAnswered
  refine ⟨fun type pl hno => ?_, fun type tag pl s h hbad => ?_, parseRequest_bad⟩
  · rw [parseRequest_bad]
    intro hallowed
    obtain ⟨r, hw, ht⟩ := allowed_type hallowed
    exact hno r hw ht
  · obtain ⟨hl, hrest⟩ := h
    rw [show exec (.badFrame type tag pl) s
        = taking (takeRequestFrame { type := type, tag := tag, req := parseRequest type pl }) s from rfl,
      taking_of_live _ hl, hbad, takeRequestFrame_of_ready _ ⟨hl, hrest⟩]
    obtain ⟨hb, -⟩ := hrest
    have same : { s.link with buffer := [] } = s.link := by rw [← hb]
    simp only [process, refuse, State.refusedWith, same]

end Sys2Proof.Machine
end

section
/-! The money journal (R66, R183, R186): what each part of an entry changes, that applying a part twice is applying it
once, and that a journalled change is whole from its first write on. -/

namespace Sys2Proof.Machine

variable {s : State}

/-! ## The parts of an entry -/

/-- The card table after the card part. -/
def CardPart.cards (part : CardPart) (cs : List Card) : List Card :=
  match part with
  | .absent => cs
  | .record c => putCard c cs
  | .removal id => dropCard id cs
  | .rollover => cs.map fun c => { c with spent := 0 }

/-- The session records after the session part. -/
def SessionPart.sessions (part : SessionPart) (v : Vector (Option Session) 24) : Vector (Option Session) 24 :=
  match part with
  | .absent => v
  | .record p ses => v.set p.val (some ses)
  | .removal p => v.set p.val none

/-- The settlement part is not yet in the queue (R162). -/
def settlementNew (part : Option Settlement) (xs : List Settlement) : Bool :=
  part.any fun r => !(xs.getLast?).any fun x => x.number == r.number

/-- The settlement queue after the settlement part. -/
def settlementsAfter (part : Option Settlement) (xs : List Settlement) : List Settlement :=
  if settlementNew part xs then xs ++ part.toList else xs

/-- The next settlement number after the settlement part. -/
def numberAfter (part : Option Settlement) (xs : List Settlement) (n : Nat) : Nat :=
  if settlementNew part xs then (part.map fun r => nextNumber Config.maxSettlementNumber r.number).getD n else n

theorem applyCard_eq (part : CardPart) (r : Retained) : applyCard part r = { r with cards := part.cards r.cards } := by
  cases part <;> rfl

theorem applySession_eq (part : SessionPart) (r : Retained) :
    applySession part r = { r with sessions := part.sessions r.sessions } := by
  cases part <;> rfl

theorem applySettlement_eq (part : Option Settlement) (r : Retained) :
    applySettlement part r
      = { r with
          settlements := settlementsAfter part r.settlements
          nextSettlement := numberAfter part r.settlements r.nextSettlement } := by
  cases part with
  | none => rfl
  | some x =>
    unfold applySettlement settlementsAfter numberAfter settlementNew
    dsimp only
    split
    · next h => simp [h]
    · next h => simp [h]

/-- The store after an entry is applied whole (R186). -/
theorem applyEntry_eq (e : JournalEntry) (r : Retained) :
    applyEntry e r
      = { r with
          cards := e.card.cards r.cards
          settlements := settlementsAfter e.settlement r.settlements
          nextSettlement := numberAfter e.settlement r.settlements r.nextSettlement
          sessions := e.session.sessions r.sessions } := by
  rw [applyEntry, applySession_eq, applySettlement_eq, applyCard_eq]

/-! ## Applying a part again -/

theorem putCard_putCard (c : Card) (cs : List Card) : putCard c (putCard c cs) = putCard c cs := by
  induction cs with
  | nil => simp [putCard]
  | cons x xs ih =>
    by_cases hid : x.id = c.id
    · simp [putCard, hid]
    · by_cases hlt : c.id.toNat < x.id.toNat
      · simp [putCard, hid, hlt]
      · simp [putCard, hid, hlt, ih]

theorem CardPart.cards_again (part : CardPart) (cs : List Card) : part.cards (part.cards cs) = part.cards cs := by
  cases part with
  | absent => rfl
  | record c => exact putCard_putCard c cs
  | removal id => exact (List.filter_filter ..).trans (by simp [dropCard, CardPart.cards])
  | rollover => simp [CardPart.cards, Function.comp_def]

theorem SessionPart.sessions_again (part : SessionPart) (v : Vector (Option Session) 24) :
    part.sessions (part.sessions v) = part.sessions v := by
  cases part <;> simp [SessionPart.sessions]

theorem settlementNew_after (part : Option Settlement) (xs : List Settlement) :
    settlementNew part (settlementsAfter part xs) = false := by
  unfold settlementsAfter
  cases h : settlementNew part xs
  · simpa using h
  · cases part with
    | none => rfl
    | some r => simp [settlementNew]

theorem settlementsAfter_again (part : Option Settlement) (xs : List Settlement) :
    settlementsAfter part (settlementsAfter part xs) = settlementsAfter part xs := by
  conv_lhs => rw [settlementsAfter, settlementNew_after]
  simp

theorem numberAfter_again (part : Option Settlement) (xs : List Settlement) (n : Nat) :
    numberAfter part (settlementsAfter part xs) n = n := by
  rw [numberAfter, settlementNew_after]
  simp

/-! ## The five writes -/

/-- The store at the start of a write: the entry stands, and the parts before it are applied. -/
def Retained.begun (e : JournalEntry) (r : Retained) : Retained := { r with journal := some e }

/-- The stores that a journalled change leaves behind it, newest first (R66). -/
def journalTrail (e : JournalEntry) (r : Retained) : List Retained :=
  [(applyEntry e r).begun e, (applySettlement e.settlement (applyCard e.card r)).begun e,
   (applyCard e.card r).begun e, r.begun e, r]

/-- A journalled change in one (R66). -/
theorem journalled_eq (e : JournalEntry) (s : State) :
    journalled e s
      = { s with ret := { applyEntry e s.ret with journal := none }, trail := journalTrail e s.ret ++ s.trail } := by
  simp only [journalled, State.write, journalTrail, Retained.begun, applyEntry_eq, applyCard_eq, applySettlement_eq,
    applySession_eq]
  rfl

theorem journalled_ret (e : JournalEntry) (s : State) :
    (journalled e s).ret = { applyEntry e s.ret with journal := none } := by rw [journalled_eq]

theorem journalled_trail (e : JournalEntry) (s : State) :
    (journalled e s).trail = journalTrail e s.ret ++ s.trail := by rw [journalled_eq]

/-- Wherever its writes stop, the store that a start settles is the whole change or the old store (R183, R186). -/
theorem settled_of_mem_journalTrail {e : JournalEntry} {r x : Retained} (hx : x ∈ journalTrail e r) :
    x = r ∨ (x.journal = some e ∧ x.settled = { applyEntry e r with journal := none }) := by
  simp only [journalTrail, List.mem_cons, List.not_mem_nil, or_false] at hx
  rcases hx with rfl | rfl | rfl | rfl | rfl
  case inr.inr.inr.inr => exact .inl rfl
  all_goals
    refine .inr ⟨rfl, ?_⟩
    simp only [Retained.settled, Retained.begun, applyEntry_eq, applyCard_eq, applySettlement_eq,
      CardPart.cards_again, SessionPart.sessions_again, settlementsAfter_again, numberAfter_again]

theorem rollForward_ret (s : State) : (rollForward s).ret = s.ret.settled := by
  unfold rollForward Retained.settled
  cases h : s.ret.journal with
  | none => rfl
  | some e =>
    simp only [State.write_ret, applyEntry_eq, applyCard_eq, applySettlement_eq, applySession_eq]

/-- Settles O53: each store of the trail carries the entry and settles to the whole change. -/
theorem journalledChangeSurvivesCut : Obligations.JournalledChangeSurvivesCut := by
  unfold Obligations.JournalledChangeSurvivesCut
  intro s e t
  have ht : t.ret = { applyEntry e s.ret with journal := none } := journalled_ret e s
  have htrail : t.trail = journalTrail e s.ret ++ s.trail := journalled_trail e s
  refine ⟨ht, ?_, ⟨(journalTrail e s.ret).take 4, by rw [htrail]; rfl, rfl⟩, fun cut h1 h4 => ?_, rfl, ?_⟩
  · rw [ht, htrail]
    exact journalled_eq e s
  · have hmem : ∃ x ∈ journalTrail e s.ret, x.journal = some e ∧ t.retainedCut cut = x := by
      rw [State.retainedCut.eq_def, htrail]
      interval_cases cut <;> exact ⟨_, by simp [journalTrail], rfl, rfl⟩
    obtain ⟨x, hx, hj, hcut⟩ := hmem
    rw [rollForward_ret, hcut, ht]
    rcases settled_of_mem_journalTrail hx with rfl | ⟨-, h⟩
    · rw [Retained.settled, hj]
    · exact h
  · rw [State.retainedCut.eq_def, htrail]
    rfl

end Sys2Proof.Machine
end

section
/-! What the operations of the room are made of. Each is a sequence of moves: a change of one order queue, one outbox,
one record, one session, one grant, a budget, a fault record, or a journalled change, with what is known where it is
made. A law that every move keeps is kept by every operation. -/

namespace Sys2Proof.Machine

/-- The part of the granting of a head that is done before its HEAT_ON is asked for (R127). -/
def giveGrant (p : PosIx) (s : State) : State :=
  (s.setHeat fun h => { h with queue := h.queue.erase p, order := h.order ++ [p] }).setVol p fun v =>
    { v with grant := .granted, slice := if s.isDryer p then some s.sliceLength else none, changed := true }

theorem grantHead_eq (p : PosIx) (s : State) :
    grantHead p s = if (giveGrant p s).queueHasRoom p then appendOrder p (newOrder .heatOn) (giveGrant p s)
      else endGrant p (giveGrant p s) := rfl

/-- An entry whose card part is that of a hold operation, or none. -/
def holdEntry (id : CardId) (f : Card → Card) (settlement : Option Settlement) (part : SessionPart) (s : State) :
    JournalEntry :=
  { card := cardPart id f s, settlement := settlement, session := part }

/-- One move of the room. -/
inductive Move : State → State → Prop
  | vol (p : PosIx) (f : PosState → PosState) (s : State) (hg : (f (s.vol p)).grant = (s.vol p).grant)
      (hq : QueueLaw (s.vol p).orders → QueueLaw (f (s.vol p)).orders) : Move s (s.setVol p f)
  | term (t : TermIx) (f : TermState → TermState) (s : State)
      (h : OutboxLaw (s.terminal t).outbox → OutboxLaw (f (s.terminal t)).outbox) : Move s (s.setTerm t f)
  | bus (f : BusState → BusState) (s : State) : Move s (s.setBus f)
  | record (p : PosIx) (f : PosRecord → PosRecord) (s : State) (h : ∀ r, (f r).config = r.config) :
      Move s (s.setRecord p f)
  | session (p : PosIx) (f : Session → Session) (s : State) : Move s (s.setSession p fun o => o.map f)
  | fault (code : Nat) (position : Option PosIx) (severity : Severity) (number : Option Nat)
      (detail : Option MissKind) (s : State) : Move s (appendFault code position severity number detail s)
  | endGrant (p : PosIx) (s : State) : Move s (endGrant p s)
  | startRelease (p : PosIx) (s : State) (h : (s.vol p).grant = .granted) : Move s (startRelease p s)
  | joinQueue (p : PosIx) (s : State) (h : s.mayQueue p = true) : Move s (joinQueue p s)
  | giveGrant (p : PosIx) (rest : List PosIx) (s : State) (hq : s.heat.queue = p :: rest)
      (hm : s.mayGrant p = true) : Move s (giveGrant p s)
  | budget (n : Nat) (s : State) (h : s.committed ≤ n) :
      Move s (s.write fun r => { r with budget := n, pendingBudget := none })
  | hold (p : PosIx) (ses ses' : Session) (id : CardId) (f : Card → Card) (s : State)
      (hs : s.session p = some ses) (hf : ∀ c, (f c).id = c.id) :
      Move s (journalled (holdEntry id f none (.record p ses') s) s)
  | cancel (p : PosIx) (ses : Session) (id : CardId) (f : Card → Card) (s : State) (hs : s.session p = some ses)
      (hf : ∀ c, (f c).id = c.id) : Move s (journalled (holdEntry id f none (.removal p) s) s)
  | close (p : PosIx) (ses : Session) (id : CardId) (f : Card → Card) (r : Settlement) (s : State)
      (hs : s.session p = some ses) (hf : ∀ c, (f c).id = c.id) :
      Move s (journalled (holdEntry id f (some r) (.removal p) s) s)
  | beginSession (p : PosIx) (ses : Session) (id : CardId) (f : Card → Card) (s : State) (hs : s.session p = none)
      (hf : ∀ c, (f c).id = c.id) (hcap : s.openSessions + s.ret.settlements.length < Config.settlementCapacity)
      (hconf : s.configured p = true) (hload : s.committed + s.motorLoad p ≤ s.ret.budget) :
      Move s (journalled (holdEntry id f none (.record p ses) s) s)

/-- Some moves of the room, one after the other. -/
abbrev Moves : State → State → Prop := Relation.ReflTransGen Move

variable {s₀ s : State}

theorem Moves.foldl {α : Type} (f : State → α → State)
    (hf : ∀ a {s₀ s : State}, Moves s₀ s → Moves s₀ (f s a)) (xs : List α) :
    ∀ {s : State}, Moves s₀ s → Moves s₀ (xs.foldl f s) := by
  induction xs with
  | nil => exact id
  | cons x xs ih => exact fun h => ih (hf x h)

/-! ## Order queues -/

/-- A queue from which orders have left keeps its law. -/
theorem QueueLaw.sublist {q q' : List Order} (hs : q'.Sublist q) (h : QueueLaw q) : QueueLaw q' := by
  obtain ⟨hlen, htail, hhalt, hoff⟩ := h
  exact ⟨hs.length_le.trans hlen, fun o ho => htail o (hs.tail.subset ho), (hs.countP_le).trans hhalt,
    (hs.countP_le).trans hoff⟩

/-- A queue whose orders changed neither what they ask nor their tags keeps its law. -/
theorem QueueLaw.map {q : List Order} (f : Order → Order) (hf : ∀ o, (f o).body = o.body ∧ (f o).tag = o.tag)
    (h : QueueLaw q) : QueueLaw (q.map f) := by
  obtain ⟨hlen, htail, hhalt, hoff⟩ := h
  have hcount : ∀ b : OrderBody, (q.map f).countP (fun o => o.undelivered && o.body == b)
      = q.countP fun o => o.undelivered && o.body == b := fun b => by
    simp only [List.countP_map, Function.comp_def, Order.undelivered, hf]
  refine ⟨by simpa using hlen, fun o ho => ?_, (hcount _).trans_le hhalt, (hcount _).trans_le hoff⟩
  rw [← List.map_tail] at ho
  obtain ⟨x, hx, rfl⟩ := List.mem_map.mp ho
  exact (hf x).2.trans (htail x hx)

/-- The head's tag is free. -/
theorem QueueLaw.stamp {o : Order} {rest : List Order} {t : ItemTag} (h : QueueLaw (o :: rest)) :
    QueueLaw ({ o with tag := some t } :: rest) := by
  obtain ⟨hlen, htail, hhalt, hoff⟩ := h
  have hcount : ∀ b : OrderBody, (({ o with tag := some t } : Order) :: rest).countP
      (fun o => o.undelivered && o.body == b) ≤ (o :: rest).countP fun o => o.undelivered && o.body == b := fun b => by
    rw [List.countP_cons_of_neg (by simp [Order.undelivered])]
    exact (List.sublist_cons_self o rest).countP_le
  exact ⟨hlen, htail, (hcount _).trans hhalt, (hcount _).trans hoff⟩

/-- One more order anywhere behind what is in delivery: a queue with room keeps its law, and the new order is no second
HALT or HEAT_OFF. -/
theorem QueueLaw.insert {a b : List Order} {o : Order} (h : QueueLaw (a ++ b))
    (hroom : (a ++ b).length < Config.orderCapacity) (ht : o.tag = none) (ha : a = [] → ∀ x ∈ b, x.tag = none)
    (hhalt : o.body = .halt → ∀ x ∈ a ++ b, x.undelivered = true → x.body ≠ .halt)
    (hoff : o.body = .heatOff → ∀ x ∈ a ++ b, x.undelivered = true → x.body ≠ .heatOff) :
    QueueLaw (a ++ o :: b) := by
  obtain ⟨-, htail, h1, h2⟩ := h
  have hperm : (a ++ o :: b).Perm (o :: (a ++ b)) := List.perm_middle
  have hcount : ∀ body : OrderBody, (a ++ b).countP (fun x => x.undelivered && x.body == body) ≤ 1 →
      (o.body = body → ∀ x ∈ a ++ b, x.undelivered = true → x.body ≠ body) →
      (a ++ o :: b).countP (fun x => x.undelivered && x.body == body) ≤ 1 := by
    intro body hle hnone
    rw [hperm.countP_eq]
    by_cases hb : o.body = body
    · have hzero : (a ++ b).countP (fun x => x.undelivered && x.body == body) = 0 := by
        rw [List.countP_eq_zero]
        intro x hx
        simpa using hnone hb x hx
      rw [List.countP_cons, hzero]
      split <;> omega
    · rw [List.countP_cons_of_neg (by simp [hb])]
      exact hle
  refine ⟨by rw [hperm.length_eq]; simp at hroom ⊢; omega, fun x hx => ?_, hcount _ h1 hhalt, hcount _ h2 hoff⟩
  cases a with
  | nil => exact ha rfl x hx
  | cons y ys =>
    have hx' : x ∈ ys ++ o :: b := hx
    rcases List.mem_append.mp hx' with h | h
    · exact htail x (List.mem_append_left _ h)
    · rcases List.mem_cons.mp h with rfl | h
      · exact ht
      · exact htail x (List.mem_append_right _ h)

/-- An order that is neither HALT nor HEAT_OFF joins the tail (R36). -/
theorem QueueLaw.append {q : List Order} {o : Order} (h : QueueLaw q) (hroom : q.length < Config.orderCapacity)
    (ht : o.tag = none) (hb : o.body ≠ .halt ∧ o.body ≠ .heatOff) : QueueLaw (q ++ [o]) :=
  QueueLaw.insert (b := []) (by simpa using h) (by simpa using hroom) ht (by simp) (fun e => absurd e hb.1)
    (fun e => absurd e hb.2)

/-- Under its law a queue whose head is not in delivery has nothing in delivery. -/
theorem QueueLaw.tags {h : Order} {t : List Order} (hq : QueueLaw (h :: t)) (hu : h.undelivered = true) :
    ∀ x ∈ h :: t, x.tag = none := by
  intro x hx
  rcases List.mem_cons.mp hx with rfl | hx
  · simpa [Order.undelivered] using hu
  · exact hq.2.1 x hx

/-- HALT in its place (R37). -/
theorem QueueLaw.placeHalt {q : List Order} (h : QueueLaw q) (hroom : q.length < Config.orderCapacity)
    (hnone : ∀ x ∈ q, x.undelivered = true → x.body ≠ .halt) : QueueLaw (insertAtFront (newOrder .halt) q) := by
  have place : ∀ a b : List Order, q = a ++ b → (a = [] → ∀ x ∈ b, x.tag = none) →
      QueueLaw (a ++ newOrder .halt :: b) := fun a b hab ha =>
    QueueLaw.insert (hab ▸ h) (hab ▸ hroom) rfl ha (fun _ => hab ▸ hnone) (fun e => nomatch e)
  cases q with
  | nil => exact place [] [] rfl (by simp)
  | cons x t =>
    change QueueLaw (if x.undelivered then newOrder .halt :: x :: t else x :: newOrder .halt :: t)
    split
    · next hu => exact place [] _ rfl fun _ => h.tags hu
    · exact place [x] t rfl (by simp)

/-- HEAT_OFF in its place (R38). -/
theorem QueueLaw.placeHeatOff {q : List Order} (h : QueueLaw q) (hroom : q.length < Config.orderCapacity)
    (hnone : ∀ x ∈ q, x.undelivered = true → x.body ≠ .heatOff) : QueueLaw (insertHeatOff (newOrder .heatOff) q) := by
  have place : ∀ a b : List Order, q = a ++ b → (a = [] → ∀ x ∈ b, x.tag = none) →
      QueueLaw (a ++ newOrder .heatOff :: b) := fun a b hab ha =>
    QueueLaw.insert (hab ▸ h) (hab ▸ hroom) rfl ha (fun e => nomatch e) (fun _ => hab ▸ hnone)
  cases q with
  | nil => exact place [] [] rfl (by simp)
  | cons x t =>
    change QueueLaw (if x.undelivered then (if x.undelivered && x.body == .halt then x :: newOrder .heatOff :: t
      else newOrder .heatOff :: x :: t) else x :: insertBehindHalt (newOrder .heatOff) t)
    split
    · next hu =>
      split
      · exact place [x] t rfl (by simp)
      · exact place [] _ rfl fun _ => h.tags hu
    · cases t with
      | nil => exact place [x] [] rfl (by simp)
      | cons y t =>
        change QueueLaw (x :: if y.undelivered && y.body == .halt then y :: newOrder .heatOff :: t
          else newOrder .heatOff :: y :: t)
        split
        · exact place [x, y] t rfl (by simp)
        · exact place [x] _ rfl (by simp)

theorem QueueLaw.place {u : Urgent} {q : List Order} (h : QueueLaw q) (hroom : q.length < Config.orderCapacity)
    (hnone : u.merges q = false) : QueueLaw (u.place q) := by
  have hn : ∀ x ∈ q, x.undelivered = true → x.body ≠ u.body := by simpa [Urgent.merges] using hnone
  cases u with
  | halt => exact h.placeHalt hroom hn
  | heatOff => exact h.placeHeatOff hroom hn

theorem makeRoom_sublist (q : List Order) : (makeRoom q).1.Sublist q := by
  unfold makeRoom
  split
  · exact List.Sublist.refl q
  · simpa using (List.eraseP_sublist (l := q.reverse) (p := Order.displaceable)).reverse

/-- A step with a HALT or HEAT_OFF keeps the law of the queue (R37, R38, R40). -/
theorem QueueLaw.step {q : List Order} (u : Urgent) (h : QueueLaw q) : QueueLaw (u.step q).orders := by
  rcases u.step_cases q with ⟨before, o, after, rfl, -, -, he⟩ | ⟨-, ⟨-, he⟩ | ⟨hm, hroom, he⟩ | ⟨-, -, he⟩⟩
  · rw [he]
    exact h.sublist ((List.Sublist.refl before).append (List.sublist_cons_self o after))
  · rw [he]; exact h
  · rw [he]; exact h.place hroom hm
  · rw [he]; exact h.sublist (makeRoom_sublist q)

theorem QueueLaw.placeAtOnce {q : List Order} (u : Urgent) (h : QueueLaw q) : QueueLaw (u.placeAtOnce q).orders := by
  unfold Urgent.placeAtOnce
  split
  · exact h
  · next hm =>
    have hs := makeRoom_sublist q
    dsimp only
    split
    · next hroom =>
      refine (h.sublist hs).place hroom ?_
      simp only [Urgent.merges, Bool.not_eq_true, List.any_eq_false] at hm ⊢
      exact fun x hx => hm x (hs.subset hx)
    · exact h.sublist hs

/-- A display order takes the place of the undelivered ones (R39). -/
theorem QueueLaw.queueDisplay {q : List Order} {body : OrderBody} (h : QueueLaw q) (hb : body.display = true) :
    QueueLaw (queueDisplay body q).1 := by
  unfold Sys2Proof.Machine.queueDisplay
  dsimp only
  split
  · next hroom =>
    refine (h.sublist List.filter_sublist).append hroom rfl ?_
    cases body <;> simp [OrderBody.display, newOrder] at hb ⊢
  · exact h.sublist List.filter_sublist

end Sys2Proof.Machine
end

section
/-! The operations of the room as sequences of moves, one lemma each, in the form that chains. -/

namespace Sys2Proof.Machine

variable {s₀ s : State}

/-! ## Outboxes -/

theorem Item.isText_of_waitingText {i : Item} (h : i.waitingText = true) : i.isText = true := by
  simp only [Item.waitingText, Bool.and_eq_true] at h
  exact h.1

theorem OutboxLaw.sublist {box box' : List Item} (hs : box'.Sublist box) (h : OutboxLaw box) : OutboxLaw box' := by
  obtain ⟨hlen, htail, hpair⟩ := h
  exact ⟨hs.length_le.trans hlen, fun i hi => htail i (hs.tail.subset hi), hpair.sublist hs⟩

theorem OutboxLaw.nil : OutboxLaw [] := ⟨Nat.zero_le _, by simp, List.Pairwise.nil⟩

/-- The head's tag is free. -/
theorem OutboxLaw.stamp {i : Item} {rest : List Item} {t : ItemTag} (h : OutboxLaw (i :: rest)) :
    OutboxLaw ({ i with tag := some t } :: rest) := by
  obtain ⟨hlen, htail, hpair⟩ := h
  refine ⟨hlen, htail, List.pairwise_cons.mpr ⟨fun x _ hw => ?_, (List.pairwise_cons.mp hpair).2⟩⟩
  simp [Item.waitingText] at hw

/-- A TEXT joins the tail (R57). -/
theorem OutboxLaw.appendText {box : List Item} {i : Item} (h : OutboxLaw box)
    (hroom : box.length < Config.outboxCapacity) (ht : i.tag = none) (hi : i.isText = true) :
    OutboxLaw (box ++ [i]) := by
  obtain ⟨-, htail, hpair⟩ := h
  refine ⟨by simpa using hroom, fun x hx => ?_, ?_⟩
  · cases box with
    | nil => simp at hx
    | cons y ys =>
      rcases List.mem_append.mp (show x ∈ ys ++ [i] from hx) with hx | hx
      · exact htail x hx
      · rw [List.mem_singleton.mp hx]; exact ht
  · rw [List.pairwise_append]
    refine ⟨hpair, List.pairwise_singleton _ _, fun a _ b hb _ => ?_⟩
    rw [List.mem_singleton.mp hb]; exact hi

/-- An undelivered ANSWER in its place (R54, R55). -/
theorem OutboxLaw.placeAnswer {box : List Item} {i : Item} (h : OutboxLaw box) (ht : i.tag = none)
    (hi : i.isText = false) : OutboxLaw (placeAnswer i box) := by
  have insert : ∀ {b : List Item}, OutboxLaw b → b.length < Config.outboxCapacity →
      OutboxLaw (b.takeWhile (fun x => !x.waitingText) ++ i :: b.dropWhile (fun x => !x.waitingText)) := by
    intro b hb hroom
    obtain ⟨-, htail, hpair⟩ := hb
    have hsplit := List.takeWhile_append_dropWhile (p := fun x : Item => !x.waitingText) (l := b)
    have hahead : ∀ x ∈ b.takeWhile (fun x => !x.waitingText), x.waitingText = false := fun x hx => by
      simpa using List.mem_takeWhile_imp hx
    generalize hA : b.takeWhile (fun x => !x.waitingText) = ahead at *
    generalize hD : b.dropWhile (fun x => !x.waitingText) = behind at *
    subst hsplit
    refine ⟨by simp at hroom ⊢; omega, fun x hx => ?_, ?_⟩
    · cases ahead with
      | nil =>
        cases behind with
        | nil => simp at hx
        | cons y ys =>
          have hy : y.waitingText = true := by
            have := List.head?_dropWhile_not (fun x : Item => !x.waitingText) (y :: ys)
            have hdrop : (y :: ys).dropWhile (fun x => !x.waitingText) = y :: ys := hD
            rw [hdrop] at this
            simpa using this
          rcases List.mem_cons.mp (show x ∈ y :: ys from hx) with rfl | hx
          · simp only [Item.waitingText, Bool.and_eq_true, Option.isNone_iff_eq_none] at hy
            exact hy.2
          · exact htail x hx
      | cons y ys =>
        rcases List.mem_append.mp (show x ∈ ys ++ i :: behind from hx) with hx | hx
        · exact htail x (List.mem_append_left _ hx)
        · rcases List.mem_cons.mp hx with rfl | hx
          · exact ht
          · exact htail x (List.mem_append_right _ hx)
    · rw [List.pairwise_append] at hpair ⊢
      obtain ⟨hpa, hpb, -⟩ := hpair
      refine ⟨hpa, List.pairwise_cons.mpr ⟨fun x _ hw => ?_, hpb⟩, fun a ha x _ hw => ?_⟩
      · rw [Item.isText_of_waitingText hw] at hi; exact absurd hi (by simp)
      · rw [hahead a ha] at hw; exact absurd hw (by simp)
  unfold Sys2Proof.Machine.placeAnswer
  dsimp only
  split
  · next hroom => exact insert h hroom
  · split
    · next hroom => exact insert (h.sublist List.eraseP_sublist) hroom
    · exact h.sublist List.eraseP_sublist

/-! ## Updates -/

/-- A change of a position's marks. -/
theorem setVol_moves (p : PosIx) (f : PosState → PosState)
    (hf : (f (s.vol p)).grant = (s.vol p).grant ∧ (f (s.vol p)).orders = (s.vol p).orders) (h : Moves s₀ s) :
    Moves s₀ (s.setVol p f) :=
  h.tail (.vol p f s hf.1 (fun hq => hf.2 ▸ hq))

theorem markChanged_moves (p : PosIx) (h : Moves s₀ s) : Moves s₀ (s.markChanged p) := setVol_moves p _ ⟨rfl, rfl⟩ h

/-- A change of a position's order queue. -/
theorem setOrders_moves (p : PosIx) (f : PosState → PosState) (hg : (f (s.vol p)).grant = (s.vol p).grant)
    (hq : QueueLaw (s.vol p).orders → QueueLaw (f (s.vol p)).orders) (h : Moves s₀ s) :
    Moves s₀ (s.setVol p f) := h.tail (.vol p f s hg hq)

theorem setBus_moves (f : BusState → BusState) (h : Moves s₀ s) : Moves s₀ (s.setBus f) := h.tail (.bus f s)

theorem setSession_moves (p : PosIx) (f : Session → Session) (h : Moves s₀ s) :
    Moves s₀ (s.setSession p fun o => o.map f) := h.tail (.session p f s)

theorem appendFault_moves (code : Nat) (position : Option PosIx) (severity : Severity) (number : Option Nat)
    (detail : Option MissKind) (h : Moves s₀ s) : Moves s₀ (appendFault code position severity number detail s) :=
  h.tail (.fault ..)

theorem raiseNotice_moves (code : Nat) (position : Option PosIx) (number : Option Nat) (h : Moves s₀ s) :
    Moves s₀ (raiseNotice code position number s) := appendFault_moves _ _ _ _ _ h

/-! ## Orders -/

theorem appendOrder_moves (p : PosIx) (o : Order) (hroom : s.queueHasRoom p = true) (ht : o.tag = none)
    (hb : o.body ≠ .halt ∧ o.body ≠ .heatOff) (h : Moves s₀ s) : Moves s₀ (appendOrder p o s) :=
  setOrders_moves p _ rfl (fun hq => hq.append (of_decide_eq_true hroom) ht hb) h

theorem askDisplay_moves (p : PosIx) (h : Moves s₀ s) : Moves s₀ (askDisplay p s) := by
  have hb : (if s.outOfOrder p then OrderBody.disable else .enable).display = true := by split <;> rfl
  unfold askDisplay
  exact setOrders_moves p _ rfl (fun hq => hq.queueDisplay hb) h

theorem serveOwed_moves (p : PosIx) (h : Moves s₀ s) : Moves s₀ (serveOwed p s) := by
  unfold serveOwed
  split
  · exact askDisplay_moves p h
  · exact h

theorem letGo_moves (isOwn : OrderBody → Bool) (p : PosIx) (h : Moves s₀ s) : Moves s₀ (letGo isOwn p s) := by
  have free : Moves s₀ (s.setVol p fun v => { v with
      orders := ((s.vol p).orders.filter fun o => !(o.undelivered && isOwn o.body && o.owned)).map fun o =>
        if isOwn o.body then { o with owned := false } else o }) :=
    setOrders_moves p _ rfl (fun hq => (hq.sublist List.filter_sublist).map _ fun o => by split <;> exact ⟨rfl, rfl⟩) h
  unfold letGo
  dsimp only
  split
  · exact serveOwed_moves p free
  · exact free

theorem withDisplay_moves (p : PosIx) (f : PosRecord → PosRecord) (hf : ∀ r, (f r).config = r.config)
    (h : Moves s₀ s) : Moves s₀ (withDisplay p f s) := by
  have k : Moves s₀ (s.setRecord p f) := h.tail (.record p f s hf)
  unfold withDisplay
  dsimp only
  split
  · exact askDisplay_moves p k
  · exact k

/-! ## Terminals -/

theorem queueAnswer_moves (t : TermIx) (a : Answer) (busy : Bool) (h : Moves s₀ s) :
    Moves s₀ (queueAnswer t a busy s) := h.tail (.term t _ s fun hb => hb.placeAnswer rfl rfl)

theorem sendAnswer_moves (t : TermIx) (a : Answer) (h : Moves s₀ s) : Moves s₀ (sendAnswer t a s) := by
  unfold sendAnswer
  split
  · exact queueAnswer_moves t a false h
  · exact h

theorem sendDecline_moves (t : TermIx) (tag : Byte) (reason : DeclineReason) (id : CardId) (h : Moves s₀ s) :
    Moves s₀ (sendDecline t tag reason id s) := sendAnswer_moves _ _ h

theorem terminalLost_moves (t : TermIx) (h : Moves s₀ s) : Moves s₀ (terminalLost t s) :=
  h.tail (.term t _ s fun _ => OutboxLaw.nil)

theorem confirmItem_moves (t : TermIx) (h : Moves s₀ s) : Moves s₀ (confirmItem t s) := by
  refine h.tail (.term t _ s fun hb => ?_)
  split
  · exact hb
  · next i rest hbox =>
    rw [hbox] at hb
    split <;> exact hb.sublist (List.sublist_cons_self i rest)

/-! ## The heat budget unit -/

theorem endGrant_moves (p : PosIx) (h : Moves s₀ s) : Moves s₀ (endGrant p s) := h.tail (.endGrant p s)

theorem joinQueue_moves (p : PosIx) (hm : s.mayQueue p = true) (h : Moves s₀ s) : Moves s₀ (joinQueue p s) :=
  h.tail (.joinQueue p s hm)

theorem grantHead_moves (p : PosIx) (rest : List PosIx) (hq : s.heat.queue = p :: rest) (hm : s.mayGrant p = true)
    (h : Moves s₀ s) : Moves s₀ (grantHead p s) := by
  have k : Moves s₀ (giveGrant p s) := h.tail (.giveGrant p rest s hq hm)
  rw [grantHead_eq]
  split
  · next hroom => exact appendOrder_moves p _ hroom rfl (by simp [newOrder]) k
  · exact endGrant_moves p k

theorem evaluateFor_moves (k : Nat) : ∀ {s : State}, Moves s₀ s → Moves s₀ (evaluateFor k s) := by
  induction k with
  | zero => exact id
  | succ k ih =>
    intro s h
    unfold evaluateFor
    split
    · exact h
    · next p rest hq =>
      split
      · next hm => exact ih (grantHead_moves p rest hq hm h)
      · exact h

theorem evaluate_moves (h : Moves s₀ s) : Moves s₀ (evaluate s) := evaluateFor_moves _ h

theorem activatePending_moves (h : Moves s₀ s) : Moves s₀ (activatePending s) := by
  unfold activatePending
  split
  · exact h
  · split
    · next n _ hle => exact h.tail (.budget n s hle)
    · exact h

theorem committedFell_moves (h : Moves s₀ s) : Moves s₀ (committedFell s) := evaluate_moves (activatePending_moves h)

theorem heatOnRefused_moves (p : PosIx) (h : Moves s₀ s) : Moves s₀ (heatOnRefused p s) := by
  unfold heatOnRefused
  split
  · exact committedFell_moves (endGrant_moves p h)
  · exact h

/-- The position joins the queue again where it may, and granting is evaluated. -/
theorem requeue_moves (p : PosIx) (asked : Bool) (h : Moves s₀ s) :
    Moves s₀ (evaluate (if asked && s.mayQueue p then joinQueue p s else s)) := by
  refine evaluate_moves ?_
  split
  · next hm => exact joinQueue_moves p (Bool.and_eq_true_iff.mp hm).2 h
  · exact h

theorem heatOnCancelled_moves (p : PosIx) (h : Moves s₀ s) : Moves s₀ (heatOnCancelled p s) := by
  unfold heatOnCancelled
  split
  · exact requeue_moves p _ (activatePending_moves (endGrant_moves p h))
  · exact h

/-! ## Sessions -/

@[simp] theorem askDisplay_session (p q : PosIx) (s : State) : (askDisplay p s).session q = s.session q := rfl

@[simp] theorem serveOwed_session (p q : PosIx) (s : State) : (serveOwed p s).session q = s.session q := by
  unfold serveOwed
  split <;> rfl

@[simp] theorem letGo_session (isOwn : OrderBody → Bool) (p q : PosIx) (s : State) :
    (letGo isOwn p s).session q = s.session q := by
  unfold letGo
  dsimp only
  split
  · exact serveOwed_session ..
  · rfl

theorem cancelSession_moves (p : PosIx) (reason : DeclineReason) (h : Moves s₀ s) :
    Moves s₀ (cancelSession p reason s) := by
  unfold cancelSession
  split
  · exact h
  · next ses hs =>
    have gone : Moves s₀ (lowerHold ses.cardId ses.hold (.removal p) (letGo OrderBody.isStart p s)) :=
      (letGo_moves _ p h).tail (.cancel p ses _ _ _ (by rw [letGo_session, hs]) fun _ => rfl)
    exact markChanged_moves p (sendDecline_moves _ _ _ _ (committedFell_moves gone))

theorem cancelIfStarting_moves (p : PosIx) (reason : DeclineReason) (h : Moves s₀ s) :
    Moves s₀ (cancelIfStarting p reason s) := by
  unfold cancelIfStarting
  split
  · exact cancelSession_moves p reason h
  · exact h

section withdrawal

variable (wd : PosIx → State → State) (hw : ∀ p {s₀ s : State}, Moves s₀ s → Moves s₀ (wd p s))
include hw

theorem goEndingWith_moves (p : PosIx) (h : Moves s₀ s) : Moves s₀ (goEndingWith wd p s) := by
  unfold goEndingWith
  dsimp only
  refine markChanged_moves p (hw p ?_)
  split
  · next hroom => exact appendOrder_moves p _ hroom rfl (by simp [newOrder]) (setSession_moves p _ h)
  · exact setSession_moves p _ h

theorem extensionFailWith_moves (p : PosIx) (reason : DeclineReason) (h : Moves s₀ s) :
    Moves s₀ (extensionFailWith wd p reason s) := by
  unfold extensionFailWith
  split
  · exact h
  · next ses hs =>
    split
    · exact h
    · next e _ =>
      have lowered : Moves s₀ (lowerHold ses.cardId e.hold (.record p { ses with ext := none, hold := ses.hold - e.hold })
          (letGo OrderBody.isExtend p s)) :=
        (letGo_moves _ p h).tail (.hold p ses _ _ _ _ (by rw [letGo_session, hs]) fun _ => rfl)
      dsimp only
      split
      · exact goEndingWith_moves wd hw p (sendDecline_moves _ _ _ _ lowered)
      · exact sendDecline_moves _ _ _ _ lowered

theorem reportCancelled_moves (p : PosIx) (o : Order) (h : Moves s₀ s) : Moves s₀ (reportCancelled wd p o s) := by
  unfold reportCancelled
  split
  · split
    · exact cancelIfStarting_moves _ _ h
    · exact h
  · split
    · exact extensionFailWith_moves wd hw _ _ h
    · exact h
  · exact heatOnCancelled_moves _ h
  all_goals exact h

theorem makeStep_moves (p : PosIx) (n : UrgentStep) (hn : QueueLaw (s.vol p).orders → QueueLaw n.orders)
    (h : Moves s₀ s) : Moves s₀ (makeStep wd p n s) := by
  have k : Moves s₀ (s.setVol p fun v => { v with orders := n.orders }) := setOrders_moves p _ rfl hn h
  unfold makeStep afterRemoval
  split
  · exact k
  · split
    · exact setVol_moves p _ ⟨rfl, rfl⟩ k
    · exact serveOwed_moves p (reportCancelled_moves wd hw p _ k)

theorem askUrgentFor_moves (u : Urgent) (p : PosIx) (k : Nat) :
    ∀ {s : State}, Moves s₀ s → Moves s₀ (askUrgentFor wd u p k s) := by
  induction k with
  | zero => exact fun h => makeStep_moves wd hw p _ (QueueLaw.placeAtOnce u) h
  | succ k ih =>
    intro s h
    have k := makeStep_moves wd hw p (u.step (s.vol p).orders) (QueueLaw.step u) h
    unfold askUrgentFor
    dsimp only
    split
    · exact k
    · exact ih k

end withdrawal

theorem withdraw_moves (p : PosIx) (h : Moves s₀ s) : Moves s₀ (withdraw p s) := by
  unfold withdraw
  split
  · exact h
  · exact h
  · exact evaluate_moves (endGrant_moves p h)
  · next hg => exact askUrgentFor_moves _ (fun _ {_ _} h => h) _ _ _ (h.tail (.startRelease p s hg))

theorem askHeatOff_moves (p : PosIx) (h : Moves s₀ s) : Moves s₀ (askHeatOff p s) :=
  askUrgentFor_moves _ (fun p {_ _} h => withdraw_moves p h) _ _ _ h

theorem askHalt_moves (p : PosIx) (h : Moves s₀ s) : Moves s₀ (askHalt p s) :=
  askUrgentFor_moves _ (fun p {_ _} h => withdraw_moves p h) _ _ _ h

theorem goEnding_moves (p : PosIx) (h : Moves s₀ s) : Moves s₀ (goEnding p s) :=
  goEndingWith_moves _ (fun p {_ _} h => withdraw_moves p h) _ h

theorem extensionFail_moves (p : PosIx) (reason : DeclineReason) (h : Moves s₀ s) :
    Moves s₀ (extensionFail p reason s) :=
  extensionFailWith_moves _ (fun p {_ _} h => withdraw_moves p h) _ _ h

theorem closeSession_moves (p : PosIx) (e : Ending) (h : Moves s₀ s) : Moves s₀ (closeSession p e s) := by
  unfold closeSession
  split
  · exact h
  · next ses hs =>
    have closed : ∀ c r, Moves s₀ (capture p ses c r (letGo OrderBody.isExtend p s)) := fun c r =>
      (letGo_moves _ p h).tail (.close p ses _ _ r _ (by rw [letGo_session, hs]) fun _ => rfl)
    have k := fun c r => withdraw_moves p (committedFell_moves (closed c r))
    dsimp only
    have answered : ∀ {u : State}, Moves s₀ u → Moves s₀ (match ses.ext with
        | none => u
        | some x => sendDecline x.term x.reqTag .machineFault ses.cardId u) := by
      intro u hu
      split
      · exact hu
      · exact sendDecline_moves _ _ _ _ hu
    split
    · exact setVol_moves p _ ⟨rfl, rfl⟩ (markChanged_moves p (answered (k _ _)))
    · exact markChanged_moves p (answered (k _ _))

/-- A new session, where the checks of R99 let it open. -/
theorem createSession_moves (p : PosIx) (ses : Session) (hs : s.session p = none)
    (hcap : s.openSessions + s.ret.settlements.length < Config.settlementCapacity) (hconf : s.configured p = true)
    (hload : s.committed + s.motorLoad p ≤ s.ret.budget) (h : Moves s₀ s) : Moves s₀ (createSession p ses s) := by
  have placed : Moves s₀ (placeHold ses.cardId ses.hold (.record p ses) s) :=
    h.tail (.beginSession p ses _ _ s hs (fun _ => rfl) hcap hconf hload)
  have marked := setVol_moves p (fun v => { v with windDown := false }) ⟨rfl, rfl⟩ placed
  unfold createSession
  dsimp only
  split
  · next hroom =>
    exact markChanged_moves p (setSession_moves p _ (appendOrder_moves p _ hroom rfl (by simp [newOrder]) marked))
  · exact cancelSession_moves p _ (markChanged_moves p marked)

theorem recordTopup_moves (p : PosIx) (t : TermIx) (reqTag : Byte) (minutes increment : Nat) (h : Moves s₀ s) :
    Moves s₀ (recordTopup p t reqTag minutes increment s) := by
  unfold recordTopup
  split
  · exact h
  · next ses hs =>
    have placed : ∀ ses', Moves s₀ (placeHold ses.cardId increment (.record p ses') s) := fun ses' =>
      h.tail (.hold p ses ses' _ _ s hs fun _ => rfl)
    dsimp only
    split
    · next hroom => exact setSession_moves p _ (appendOrder_moves p _ hroom rfl (by simp [newOrder]) (placed _))
    · exact extensionFail_moves p _ (placed _)

/-- What the checks of R99 leave true of a request that opens a session. -/
theorem authorize_create {p : PosIx} {t : TermIx} {r : CardRequest} {ses : Session}
    (h : authorize p t r s = .ok (.create ses)) :
    s.session p = none ∧ s.openSessions + s.ret.settlements.length < Config.settlementCapacity
      ∧ s.configured p = true ∧ s.committed + s.motorLoad p ≤ s.ret.budget := by
  unfold authorize at h
  split at h
  · exact nomatch h
  · next cfg hcfg =>
    split at h
    · exact nomatch h
    · split at h
      · exact nomatch h
      split at h
      · exact nomatch h
      split at h
      · exact nomatch h
      split at h
      · next hs =>
        refine ⟨hs, ?_⟩
        have hconf : s.configured p = true := by rw [State.configured, hcfg]; rfl
        unfold authorizeNew at h
        split at h
        · exact nomatch h
        split at h
        · exact nomatch h
        split at h
        · exact nomatch h
        next hcap =>
        split at h
        · exact nomatch h
        next hload =>
        simp only [Bool.or_eq_true, decide_eq_true_eq, not_or, Nat.not_lt] at hload
        exact ⟨Nat.not_le.mp hcap, hconf, hload.2⟩
      · split at h
        · unfold authorizeTopup at h
          dsimp only at h
          split at h
          · exact nomatch h
          split at h
          · exact nomatch h
          · exact nomatch h
        · exact nomatch h

theorem takeRequest_moves (p : PosIx) (t : TermIx) (r : CardRequest) (h : Moves s₀ s) :
    Moves s₀ (takeRequest p t r s) := by
  unfold takeRequest
  split
  · exact sendDecline_moves _ _ _ _ h
  · next ses ha =>
    obtain ⟨hs, hcap, hconf, hload⟩ := authorize_create ha
    exact createSession_moves p ses hs hcap hconf hload h
  · exact recordTopup_moves _ _ _ _ _ h

theorem startTaken_moves (p : PosIx) (h : Moves s₀ s) : Moves s₀ (startTaken p s) := by
  unfold startTaken
  split
  · exact h
  · exact markChanged_moves p (sendAnswer_moves _ _ (setSession_moves p _ h))

theorem extendTaken_moves (p : PosIx) (h : Moves s₀ s) : Moves s₀ (extendTaken p s) := by
  unfold extendTaken
  split
  · exact h
  · split
    · exact h
    · exact sendAnswer_moves _ _ (setSession_moves p _ h)

theorem unpaidRun_moves (p : PosIx) (fromState : Bool) (h : Moves s₀ s) : Moves s₀ (unpaidRun p fromState s) := by
  unfold unpaidRun
  split
  · exact h
  · split
    · split
      · exact h
      · exact askHalt_moves p h
    · exact askHalt_moves p (setVol_moves p _ ⟨rfl, rfl⟩ (raiseNotice_moves _ _ _ h))

theorem pauseSession_moves (p : PosIx) (h : Moves s₀ s) : Moves s₀ (pauseSession p s) :=
  markChanged_moves p (withdraw_moves p (setSession_moves p _ h))

theorem resumeSession_moves (p : PosIx) (h : Moves s₀ s) : Moves s₀ (resumeSession p s) :=
  markChanged_moves p (setSession_moves p _ h)

theorem loseCycle_moves (p : PosIx) (h : Moves s₀ s) : Moves s₀ (loseCycle p s) :=
  raiseNotice_moves _ _ _ (closeSession_moves p _ h)

theorem applyReport_moves (p : PosIx) (ses : Session) (ms : MachineState) (h : Moves s₀ s) :
    Moves s₀ (applyReport p ses ms s) := by
  unfold applyReport
  split
  · exact h
  · exact pauseSession_moves p h
  · exact resumeSession_moves p h
  · exact h
  · exact h
  · exact h
  · exact h
  · exact closeSession_moves p _ h
  · exact loseCycle_moves p h
  · exact loseCycle_moves p h

theorem clearMarks_moves (p : PosIx) (ms : MachineState) (h : Moves s₀ s) : Moves s₀ (clearMarks p ms s) :=
  setVol_moves p _ ⟨rfl, rfl⟩ h

theorem sessionTakesState_moves (p : PosIx) (ms : MachineState) (h : Moves s₀ s) :
    Moves s₀ (sessionTakesState p ms s) := by
  have k := clearMarks_moves p ms h
  unfold sessionTakesState
  dsimp only
  split
  · split
    · exact unpaidRun_moves p true k
    · exact k
  · split
    · exact setSession_moves p _ k
    · exact applyReport_moves p _ ms k

theorem countMinute_moves (p : PosIx) (h : Moves s₀ s) : Moves s₀ (countMinute p s) := by
  unfold countMinute
  split
  · exact h
  · split
    · exact h
    · split
      · exact setSession_moves p _ h
      · dsimp only
        split
        · exact goEnding_moves p (setSession_moves p _ h)
        · exact setSession_moves p _ h

theorem tickSession_moves (p : PosIx) (h : Moves s₀ s) : Moves s₀ (tickSession p s) := by
  unfold tickSession
  split
  · exact setSession_moves p _ h
  · exact h

theorem abandon_moves (p : PosIx) (h : Moves s₀ s) : Moves s₀ (abandon p s) := by
  have k := closeSession_moves p (.plain .abandoned) h
  unfold abandon
  dsimp only
  split
  · next hroom => exact appendOrder_moves p _ hroom rfl (by simp [newOrder]) k
  · exact k

theorem timeOut_moves (p : PosIx) (h : Moves s₀ s) : Moves s₀ (timeOut p s) :=
  raiseNotice_moves _ _ _ (closeSession_moves p _ h)

theorem forceEndSession_moves (p : PosIx) (policy : Policy) (h : Moves s₀ s) :
    Moves s₀ (forceEndSession p policy s) := by
  unfold forceEndSession
  split
  · exact cancelSession_moves p _ h
  · exact askHalt_moves p (closeSession_moves p _ h)

/-! ## Faults -/

theorem setActive_moves (p : PosIx) (code : Nat) (c : FaultClass) (h : Moves s₀ s) :
    Moves s₀ (setActive p code c s) := markChanged_moves p (withDisplay_moves p _ (fun _ => rfl) h)

theorem clearActive_moves (p : PosIx) (h : Moves s₀ s) : Moves s₀ (clearActive p s) :=
  markChanged_moves p (withDisplay_moves p _ (fun _ => rfl) h)

theorem endByFault_moves (p : PosIx) (code : Nat) (c : FaultClass) (h : Moves s₀ s) :
    Moves s₀ (endByFault p code c s).1 := by
  unfold endByFault
  split
  · exact h
  · split
    · exact cancelSession_moves p _ h
    all_goals exact closeSession_moves p _ h

theorem becomeActive_moves (p : PosIx) (code : Nat) (c : FaultClass) (d : Option MissKind) (h : Moves s₀ s) :
    Moves s₀ (becomeActive p code c d s) :=
  appendFault_moves _ _ _ _ _ (endByFault_moves p code c (setActive_moves p code c h))

theorem makeSafe_moves (p : PosIx) (h : Moves s₀ s) : Moves s₀ (makeSafe p s) :=
  withdraw_moves p (askHeatOff_moves p (askHalt_moves p h))

theorem raiseFault_moves (p : PosIx) (code : Nat) (d : Option MissKind) (h : Moves s₀ s) :
    Moves s₀ (raiseFault p code d s) := by
  unfold raiseFault
  dsimp only
  split
  · exact raiseNotice_moves _ _ _ h
  · exact becomeActive_moves _ _ _ _ h
  · exact appendFault_moves _ _ _ _ _ h
  · exact makeSafe_moves p (becomeActive_moves _ _ _ _ h)
  · split
    · exact askHeatOff_moves p (askHalt_moves p (appendFault_moves _ _ _ _ _ h))
    all_goals exact makeSafe_moves p (appendFault_moves _ _ _ _ _ (setActive_moves p code _ h))

theorem faultTakesField_moves (p : PosIx) (field : Nat) (ms : MachineState) (h : Moves s₀ s) :
    Moves s₀ (faultTakesField p field ms s) := by
  have k := setVol_moves p (fun v => { v with prevFault := field }) ⟨rfl, rfl⟩ h
  unfold faultTakesField
  dsimp only
  split
  · split
    · split
      · exact clearActive_moves p k
      · exact k
    · exact k
  · split
    · exact k
    · exact raiseFault_moves p _ _ k

theorem faultTakesClass_moves (p : PosIx) (cls : MachineClass) (h : Moves s₀ s) :
    Moves s₀ (faultTakesClass p cls s) := by
  unfold faultTakesClass
  split
  · split
    · exact h
    · exact raiseFault_moves p _ _ (setVol_moves p _ ⟨rfl, rfl⟩ h)
  · exact setVol_moves p _ ⟨rfl, rfl⟩ h

/-! ## Positions -/

theorem reportOutcome_moves (p : PosIx) (o : Order) (out : OrderOutcome) (h : Moves s₀ s) :
    Moves s₀ (reportOutcome p o out s) := by
  unfold reportOutcome
  split
  · split
    · exact startTaken_moves p h
    · exact unpaidRun_moves p false h
  · split
    · exact cancelIfStarting_moves p _ h
    · exact h
  · split
    · exact extendTaken_moves p h
    · exact h
  · split
    · exact extensionFail_moves p _ h
    · exact h
  · exact h
  · exact heatOnRefused_moves p h
  · exact setVol_moves p _ ⟨rfl, rfl⟩ h
  all_goals exact h

theorem confirmOrder_moves (p : PosIx) (out : OrderOutcome) (h : Moves s₀ s) : Moves s₀ (confirmOrder p out s) := by
  unfold confirmOrder
  split
  · exact h
  · next o rest ho =>
    refine serveOwed_moves p (reportOutcome_moves p o out (setOrders_moves p _ rfl (fun hq => ?_) h))
    rw [ho] at hq
    exact hq.sublist (List.sublist_cons_self o rest)

theorem testViolation_moves (p : PosIx) (on : Bool) (h : Moves s₀ s) : Moves s₀ (testViolation p on s) := by
  unfold testViolation
  split
  · exact h
  · split
    · dsimp only
      split
      · exact raiseFault_moves p _ _ (setVol_moves p _ ⟨rfl, rfl⟩ h)
      · exact setVol_moves p _ ⟨rfl, rfl⟩ h
    · exact setVol_moves p _ ⟨rfl, rfl⟩ h

theorem finishRelease_moves (p : PosIx) (r : Bool) (h : Moves s₀ s) : Moves s₀ (finishRelease p r s) :=
  requeue_moves p r (activatePending_moves (endGrant_moves p h))

theorem heatTakesState_moves (p : PosIx) (on r : Bool) (h : Moves s₀ s) : Moves s₀ (heatTakesState p on r s) := by
  have k : Moves s₀ (if (testViolation p on s).releaseEnds p on then
      finishRelease p r (testViolation p on s) else testViolation p on s) := by
    split
    · exact finishRelease_moves _ _ (testViolation_moves _ _ h)
    · exact testViolation_moves _ _ h
  have tail : ∀ (b : Bool) (a : State), Moves s₀ a → Moves s₀
      (if r then if b && a.mayQueue p then evaluate (joinQueue p a) else a else withdraw p a) := by
    intro b a ha
    split
    · split
      · next hm => exact evaluate_moves (joinQueue_moves p (Bool.and_eq_true_iff.mp hm).2 ha)
      · exact ha
    · exact withdraw_moves p ha
  exact tail _ _ (setVol_moves p (fun v => { v with heatRequest := r }) ⟨rfl, rfl⟩ k)

theorem dispatchState_moves (p : PosIx) (x : LastState) (h : Moves s₀ s) : Moves s₀ (dispatchState p x s) :=
  heatTakesState_moves p _ _ (sessionTakesState_moves p _ (faultTakesField_moves p _ _
    (faultTakesClass_moves p _ (setVol_moves p _ ⟨rfl, rfl⟩ h))))

theorem machineLost_moves (p : PosIx) (k : MissKind) (h : Moves s₀ s) : Moves s₀ (machineLost p k s) :=
  withdraw_moves p (cancelIfStarting_moves p _ (raiseFault_moves p _ _ (markChanged_moves p h)))

theorem machinePresent_moves (p : PosIx) (h : Moves s₀ s) : Moves s₀ (machinePresent p s) := by
  have k := askDisplay_moves p (markChanged_moves p h)
  unfold machinePresent
  dsimp only
  split
  · split
    · exact clearActive_moves p k
    · exact k
  · exact k

/-! ## The room bus -/

theorem setNodeBus_moves (node : Node) (f : NodeBus → NodeBus) (h : Moves s₀ s) : Moves s₀ (s.setNodeBus node f) := by
  cases node with
  | machine p => exact setVol_moves p (fun v => { v with bus := f v.bus }) ⟨rfl, rfl⟩ h
  | terminal t => exact h.tail (.term t (fun v => { v with bus := f v.bus }) s id)

theorem missNode_moves (node : Node) (kind : MissKind) (h : Moves s₀ s) : Moves s₀ (missNode node kind s) := by
  unfold missNode
  dsimp only
  split
  · exact setNodeBus_moves _ _ h
  · split
    · exact setNodeBus_moves _ _ h
    · split
      · exact machineLost_moves _ _ (setNodeBus_moves _ _ h)
      · exact terminalLost_moves _ (setNodeBus_moves _ _ h)

theorem heardNode_moves (node : Node) (h : Moves s₀ s) : Moves s₀ (heardNode node s) := by
  unfold heardNode
  dsimp only
  split
  · exact setNodeBus_moves _ _ h
  · split
    · exact machinePresent_moves _ (setNodeBus_moves _ _ h)
    · exact setNodeBus_moves _ _ h

theorem takeCard_moves (t : TermIx) (r : CardRequest) (h : Moves s₀ s) : Moves s₀ (takeCard t r s) := by
  have asked := h.tail (.term t (fun v => { v with request := some r.reqTag }) s id)
  unfold takeCard
  split
  · exact h
  · split
    · split
      · exact h
      · exact queueAnswer_moves _ _ _ h
    · dsimp only
      split
      · exact queueAnswer_moves _ _ _ asked
      · exact takeRequest_moves _ _ _ asked

theorem learnOrConfirm_moves (node : Node) (carried : Option ItemTag) (f : ReplyFields) (h : Moves s₀ s) :
    Moves s₀ (learnOrConfirm node carried f s) := by
  unfold learnOrConfirm
  split
  · exact setNodeBus_moves _ _ h
  · split
    · split
      · exact confirmOrder_moves _ _ h
      · exact confirmItem_moves _ h
      · exact h
    · exact h

theorem handOn_moves (node : Node) (f : ReplyFields) (h : Moves s₀ s) : Moves s₀ (handOn node f s) := by
  unfold handOn
  split
  · exact dispatchState_moves _ _ h
  · exact takeCard_moves _ _ h
  all_goals exact h

theorem concludeVisit_moves (v : Visit) (c : ReplyClass) (h : Moves s₀ s) : Moves s₀ (concludeVisit v c s) := by
  have k := setBus_moves (fun b => { b with visit := none, space := none }) h
  unfold concludeVisit
  dsimp only
  split
  · exact k
  · split
    · exact handOn_moves _ _ (learnOrConfirm_moves _ _ _ (heardNode_moves _ k))
    · exact missNode_moves _ _ k
    · exact missNode_moves _ _ k

theorem receiveChars_moves (v : Visit) (old chars : List BusChar) (h : Moves s₀ s) :
    Moves s₀ (receiveChars v old chars s) := by
  unfold receiveChars
  dsimp only
  split
  · split <;> exact concludeVisit_moves _ _ h
  · exact setBus_moves _ h

theorem concludeBroken_moves (v : Visit) (chars : List BusChar) (gap broken : Bool) (h : Moves s₀ s) :
    Moves s₀ (concludeBroken v chars gap broken s) := by
  unfold concludeBroken
  split <;> exact concludeVisit_moves _ _ h

theorem checkJam_moves (h : Moves s₀ s) : Moves s₀ (checkJam s) := by
  unfold checkJam
  split
  · exact raiseNotice_moves _ _ _ (setBus_moves _ h)
  · exact h

theorem takeReply_moves (chars : List BusChar) (h : Moves s₀ s) : Moves s₀ (takeReply chars s) := by
  unfold takeReply
  split
  · exact h
  · exact receiveChars_moves _ _ _ h

theorem takeGap_moves (chars : List BusChar) (h : Moves s₀ s) : Moves s₀ (takeGap chars s) := by
  unfold takeGap
  split
  · exact h
  · dsimp only
    split
    · exact h
    · split
      · exact receiveChars_moves _ _ _ h
      · exact concludeBroken_moves _ _ _ _ h

theorem takeBreak_moves (chars : List BusChar) (h : Moves s₀ s) : Moves s₀ (takeBreak chars s) := by
  unfold takeBreak
  split
  · split
    · exact setBus_moves _ h
    · split
      · exact setBus_moves _ (receiveChars_moves _ _ _ h)
      · exact setBus_moves _ (setBus_moves _ h)
  · exact h

theorem overLine_moves (f : List BusChar → State → State) (hf : ∀ cs {s₀ s : State}, Moves s₀ s → Moves s₀ (f cs s))
    (times : List BusTime) (h : Moves s₀ s) : Moves s₀ (overLine f times s) := by
  unfold overLine
  dsimp only
  split
  · exact takeBreak_moves _ h
  · exact hf _ h

theorem loadMachineVisit_moves (p : PosIx) (h : Moves s₀ s) : Moves s₀ (loadMachineVisit p s).1 := by
  unfold loadMachineVisit
  dsimp only
  split
  · next o rest _ ho =>
    dsimp only
    refine setOrders_moves p _ rfl (fun hq => ?_) h
    rw [ho] at hq
    exact hq.stamp
  · exact h

theorem loadTerminalVisit_moves (t : TermIx) (h : Moves s₀ s) : Moves s₀ (loadTerminalVisit t s).1 := by
  unfold loadTerminalVisit
  dsimp only
  split
  · next i rest _ ho =>
    dsimp only
    refine h.tail (.term t _ s fun hb => ?_)
    rw [ho] at hb
    exact hb.stamp
  · exact h

theorem beginVisit_moves (node : Node) (h : Moves s₀ s) : Moves s₀ (beginVisit node s) := by
  unfold beginVisit
  refine setBus_moves _ ?_
  cases node with
  | machine p => exact loadMachineVisit_moves p h
  | terminal t => exact loadTerminalVisit_moves t h

theorem offer_moves (nodes : List Node) : ∀ {s : State}, Moves s₀ s → Moves s₀ (offer nodes s).1 := by
  induction nodes with
  | nil => exact id
  | cons node rest ih =>
    intro s h
    unfold offer
    dsimp only
    split
    · exact h
    · split
      · exact setNodeBus_moves node (fun b => { b with skip := 0 }) h
      · exact ih (setNodeBus_moves node _ h)

theorem fillSlots_moves (k : Nat) : ∀ {s : State}, Moves s₀ s → Moves s₀ (fillSlots k s).1 := by
  induction k with
  | zero => exact id
  | succ k ih =>
    intro s h
    have k := setBus_moves (fun b => { b with slot := b.slot.next }) (offer_moves s.candidates h)
    unfold fillSlots
    dsimp only
    split
    · exact k
    · exact ih k

theorem startVisit_moves (h : Moves s₀ s) : Moves s₀ (startVisit s) := by
  have k := fillSlots_moves 24 h
  unfold startVisit
  split
  · exact h
  · dsimp only
    split
    · exact beginVisit_moves _ k
    · exact k

end Sys2Proof.Machine
end

section
/-! The law of the heat budget unit under the moves of the room (R120, R125 to R127, R134). -/

namespace Sys2Proof.Machine

variable {s t : State}

/-! ## Sums over the positions -/

theorem mem_allPositions (p : PosIx) : p ∈ allPositions := by
  have all : ∀ p : PosIx, p ∈ allPositions := by decide
  exact all p

theorem nodup_allPositions : allPositions.Nodup := by decide

/-- Two sums that differ at one position only. -/
theorem sum_update {f g : PosIx → Nat} (p : PosIx) (h : ∀ q, q ≠ p → f q = g q) :
    (allPositions.map f).sum + g p = (allPositions.map g).sum + f p := by
  have general : ∀ xs : List PosIx, xs.Nodup → p ∈ xs → (xs.map f).sum + g p = (xs.map g).sum + f p := by
    intro xs
    induction xs with
    | nil => intro _ hp; simp at hp
    | cons x xs ih =>
      intro hnd hp
      obtain ⟨hx, hnd⟩ := List.nodup_cons.mp hnd
      by_cases hxp : x = p
      · subst hxp
        have same : xs.map f = xs.map g := List.map_congr_left fun q hq => h q fun e => hx (e ▸ hq)
        simp only [List.map_cons, List.sum_cons, same]
        omega
      · have := ih hnd ((List.mem_cons.mp hp).resolve_left (Ne.symm hxp))
        simp only [List.map_cons, List.sum_cons, h x hxp]
        omega
  exact general _ nodup_allPositions (mem_allPositions p)

/-- Committed load after a change at one position (R120). -/
theorem committed_update (p : PosIx) (h : ∀ q, q ≠ p → t.loadOf q = s.loadOf q) :
    t.committed + s.loadOf p = s.committed + t.loadOf p := sum_update p h

/-! ## The law without its clause about SAG -/

/-- The clauses of the law that hold whatever the sag state. -/
structure HeatCore (s : State) : Prop where
  queue_nodup : s.heat.queue.Nodup
  mem_queue : ∀ p, p ∈ s.heat.queue ↔ (s.vol p).grant = .queued
  order_nodup : s.heat.order.Nodup
  mem_order : ∀ p, p ∈ s.heat.order ↔ (s.vol p).grant = .granted
  configured : ∀ p, ((s.session p).isSome = true ∨ (s.vol p).grant ≠ .none) → s.configured p = true
  within : s.committed ≤ s.ret.budget

theorem heatLaw_iff : HeatLaw s ↔ HeatCore s ∧ (s.heat.sag ≠ .normal → ∀ p, (s.vol p).grant ≠ .granted) :=
  ⟨fun ⟨h1, h2, h3, h4, h5, h6, h7⟩ => ⟨⟨h1, h2, h3, h4, h5, h6⟩, h7⟩,
   fun ⟨h, h7⟩ => ⟨h.1, h.2, h.3, h.4, h.5, h.6, h7⟩⟩

/-- What the law reads of the state. -/
structure HeatSame (s t : State) : Prop where
  queue : t.heat.queue = s.heat.queue
  order : t.heat.order = s.heat.order
  grant : ∀ p, (t.vol p).grant = (s.vol p).grant
  session : ∀ p, (t.session p).isSome = (s.session p).isSome
  config : ∀ p, (t.record p).config = (s.record p).config

theorem HeatSame.configured (h : HeatSame s t) (p : PosIx) : t.configured p = s.configured p := by
  rw [State.configured, State.configured, h.config]

theorem HeatSame.loadOf (h : HeatSame s t) (p : PosIx) : t.loadOf p = s.loadOf p := by
  simp only [State.loadOf, State.motorLoad, State.heaterDemand, h.session, h.grant, h.config]

theorem HeatSame.committed (h : HeatSame s t) : t.committed = s.committed := by
  unfold State.committed
  rw [funext h.loadOf]

/-- The law follows what it reads, for a budget that committed load still meets. -/
theorem HeatCore.of_same (hs : HeatCore s) (h : HeatSame s t) (hb : s.committed ≤ t.ret.budget) : HeatCore t where
  queue_nodup := by rw [h.queue]; exact hs.queue_nodup
  mem_queue p := by rw [h.queue, h.grant]; exact hs.mem_queue p
  order_nodup := by rw [h.order]; exact hs.order_nodup
  mem_order p := by rw [h.order, h.grant]; exact hs.mem_order p
  configured p := by rw [h.session, h.grant, h.configured]; exact hs.configured p
  within := by rw [h.committed]; exact hb

/-! ## Each move -/

theorem vol_grant_setVol (p q : PosIx) (f : PosState → PosState) (hg : (f (s.vol p)).grant = (s.vol p).grant) :
    ((s.setVol p f).vol q).grant = (s.vol q).grant := by
  rw [State.vol_setVol]
  split
  · next e => subst e; exact hg
  · rfl

theorem isSome_session_set {r : Retained} {p q : PosIx} {o : Option Session} :
    (r.sessions.set p.val o)[q.val].isSome = if p = q then o.isSome else r.sessions[q.val].isSome := by
  by_cases h : p = q
  · subst h; simp
  · have hv : p.val ≠ q.val := fun e => h (Fin.ext e)
    simp [h, hv]

/-- What a journalled change does to the sessions. -/
theorem session_journalled (e : JournalEntry) (q : PosIx) (s : State) :
    (journalled e s).session q = (e.session.sessions s.ret.sessions)[q.val] := by
  rw [State.session, journalled_ret, applyEntry_eq]

/-- One grant takes a value, with the queue and the order that follow it. -/
theorem HeatCore.regrant (hs : HeatCore s) (p : PosIx) (g : Grant) (hret : t.ret = s.ret)
    (hgrant : ∀ q, (t.vol q).grant = if p = q then g else (s.vol q).grant)
    (hqueue : t.heat.queue.Nodup ∧ ∀ q, q ∈ t.heat.queue ↔ if p = q then g = .queued else q ∈ s.heat.queue)
    (horder : t.heat.order.Nodup ∧ ∀ q, q ∈ t.heat.order ↔ if p = q then g = .granted else q ∈ s.heat.order)
    (hconf : g ≠ .none → s.configured p = true)
    (hload : g.counted = true → (s.vol p).grant.counted = true ∨ s.committed + s.heaterDemand p ≤ s.ret.budget) :
    HeatCore t := by
  have hses : ∀ q, t.session q = s.session q := fun q => by rw [State.session, hret]; rfl
  have hrec : ∀ q, t.record q = s.record q := fun q => by rw [State.record, hret]; rfl
  have hcon : ∀ q, t.configured q = s.configured q := fun q => by rw [State.configured, hrec]; rfl
  have hmotor : ∀ q, t.motorLoad q = s.motorLoad q := fun q => by rw [State.motorLoad, hrec]; rfl
  have hdemand : ∀ q, t.heaterDemand q = s.heaterDemand q := fun q => by rw [State.heaterDemand, hrec]; rfl
  have hupd := committed_update (s := s) (t := t) p fun q hq => by
    simp only [State.loadOf, hses, hgrant, if_neg (Ne.symm hq), hmotor, hdemand]
  have hwithin := hs.within
  refine ⟨hqueue.1, fun q => ?_, horder.1, fun q => ?_, fun q hq => ?_, ?_⟩
  · rw [hqueue.2, hgrant]
    split
    · rfl
    · exact hs.mem_queue q
  · rw [horder.2, hgrant]
    split
    · rfl
    · exact hs.mem_order q
  · rw [hses, hgrant] at hq
    rw [hcon]
    split at hq
    · next e =>
      subst e
      exact hq.elim (fun h => hs.configured p (.inl h)) hconf
    · exact hs.configured q hq
  · rw [hret]
    simp only [State.loadOf, hses, hgrant, if_true, hmotor, hdemand] at hupd
    cases hg : g.counted
    · simp only [hg, Bool.false_eq_true, if_false] at hupd
      omega
    · simp only [hg, if_true] at hupd
      rcases hload hg with h | h
      · simp only [h, if_true] at hupd
        omega
      · omega

/-- The session of one position changes. -/
theorem HeatCore.resession (hs : HeatCore s) (p : PosIx) (hheat : t.heat = s.heat) (hpos : t.pos = s.pos)
    (hposs : t.ret.positions = s.ret.positions) (hbudget : t.ret.budget = s.ret.budget)
    (hses : ∀ q, q ≠ p → t.session q = s.session q)
    (hopen : (t.session p).isSome = true → (s.session p).isSome = true
      ∨ (s.configured p = true ∧ s.committed + s.motorLoad p ≤ s.ret.budget)) : HeatCore t := by
  have hvol : ∀ q, t.vol q = s.vol q := fun q => by rw [State.vol, hpos]; rfl
  have hrec : ∀ q, t.record q = s.record q := fun q => by rw [State.record, hposs]; rfl
  have hcon : ∀ q, t.configured q = s.configured q := fun q => by rw [State.configured, hrec]; rfl
  have hmotor : ∀ q, t.motorLoad q = s.motorLoad q := fun q => by rw [State.motorLoad, hrec]; rfl
  have hdemand : ∀ q, t.heaterDemand q = s.heaterDemand q := fun q => by rw [State.heaterDemand, hrec]; rfl
  have hupd := committed_update (s := s) (t := t) p fun q hq => by
    simp only [State.loadOf, hses q hq, hvol, hmotor, hdemand]
  have hwithin := hs.within
  refine ⟨by rw [hheat]; exact hs.queue_nodup, fun q => by rw [hheat, hvol]; exact hs.mem_queue q,
    by rw [hheat]; exact hs.order_nodup, fun q => by rw [hheat, hvol]; exact hs.mem_order q, fun q hq => ?_, ?_⟩
  · rw [hcon]
    rw [hvol] at hq
    by_cases hqp : q = p
    · subst hqp
      rcases hq with h | h
      · rcases hopen h with h | ⟨h, -⟩
        · exact hs.configured q (.inl h)
        · exact h
      · exact hs.configured q (.inr h)
    · rw [hses q hqp] at hq
      exact hs.configured q hq
  · rw [hbudget]
    simp only [State.loadOf, hvol, hmotor, hdemand] at hupd
    cases ht : (t.session p).isSome
    · simp only [ht, Bool.false_eq_true, if_false] at hupd
      omega
    · rcases hopen ht with h | ⟨-, h⟩
      · simp only [ht, h, if_true] at hupd
        omega
      · simp only [ht, if_true] at hupd
        omega

theorem setVol_grant (p q : PosIx) (f : PosState → PosState) (g : Grant) (hf : ∀ v, (f v).grant = g) (s : State) :
    ((s.setVol p f).vol q).grant = if p = q then g else (s.vol q).grant := by
  rw [State.vol_setVol]
  split
  · exact hf _
  · rfl

theorem mem_erase_ite {xs : List PosIx} (hnd : xs.Nodup) (p q : PosIx) :
    q ∈ xs.erase p ↔ if p = q then False else q ∈ xs := by
  rw [hnd.mem_erase_iff]
  split
  · next e => simp [e]
  · next e => simp [Ne.symm e]

theorem HeatCore.endGrant (hs : HeatCore s) (p : PosIx) : HeatCore (endGrant p s) := by
  refine hs.regrant p .none rfl (fun q => setVol_grant p q _ _ (fun _ => rfl) _) ⟨hs.queue_nodup.erase p, fun q => ?_⟩
    ⟨hs.order_nodup.erase p, fun q => ?_⟩ (fun h => absurd rfl h) (fun h => nomatch h)
  · exact (mem_erase_ite hs.queue_nodup p q).trans (by simp)
  · exact (mem_erase_ite hs.order_nodup p q).trans (by simp)

theorem HeatCore.startRelease (hs : HeatCore s) (p : PosIx) (h : (s.vol p).grant = .granted) :
    HeatCore (startRelease p s) := by
  refine hs.regrant p .releasing rfl (fun q => setVol_grant p q _ _ (fun _ => rfl) _) ⟨hs.queue_nodup, fun q => ?_⟩
    ⟨hs.order_nodup.erase p, fun q => ?_⟩ (fun _ => hs.configured p (.inr (by simp [h])))
    (fun _ => .inl (by rw [h]; rfl))
  · change q ∈ s.heat.queue ↔ _
    split
    · next e => subst e; rw [hs.mem_queue, h]; simp
    · rfl
  · exact (mem_erase_ite hs.order_nodup p q).trans (by simp)

theorem State.mayQueue_iff {p : PosIx} : s.mayQueue p = true ↔
    s.sessionIs p .running = true ∧ 0 < s.heaterDemand p ∧ (s.vol p).grant = .none := by
  simp [State.mayQueue, and_assoc]

theorem State.isSome_of_sessionIs {p : PosIx} {st : SessionState} (h : s.sessionIs p st = true) :
    (s.session p).isSome = true := by
  unfold State.sessionIs at h
  cases hs : s.session p
  · rw [hs] at h; exact nomatch h
  · rfl

theorem HeatCore.joinQueue (hs : HeatCore s) (p : PosIx) (h : s.mayQueue p = true) : HeatCore (joinQueue p s) := by
  obtain ⟨hrun, -, hnone⟩ := State.mayQueue_iff.mp h
  have hout : p ∉ s.heat.queue := by rw [hs.mem_queue, hnone]; simp
  refine hs.regrant p .queued rfl (fun q => setVol_grant p q _ _ (fun _ => rfl) _) ⟨?_, fun q => ?_⟩
    ⟨hs.order_nodup, fun q => ?_⟩
    (fun _ => hs.configured p (.inl (State.isSome_of_sessionIs hrun))) (fun h => nomatch h)
  · exact hs.queue_nodup.append (List.nodup_singleton p) (by simpa using hout)
  · change q ∈ s.heat.queue ++ [p] ↔ _
    split
    · next e => simp [e]
    · next e => simp [Ne.symm e]
  · change q ∈ s.heat.order ↔ _
    split
    · next e => subst e; rw [hs.mem_order, hnone]; simp
    · rfl

theorem State.mayGrant_iff {p : PosIx} : s.mayGrant p = true ↔
    s.heat.sag = .normal ∧ s.ret.pendingBudget = none ∧ s.committed + s.heaterDemand p ≤ s.ret.budget := by
  simp [State.mayGrant, and_assoc]

theorem HeatCore.giveGrant (hs : HeatCore s) {p : PosIx} {rest : List PosIx} (hq : s.heat.queue = p :: rest)
    (hm : s.mayGrant p = true) : HeatCore (giveGrant p s) := by
  obtain ⟨-, -, hload⟩ := State.mayGrant_iff.mp hm
  have hqueued : (s.vol p).grant = .queued := (hs.mem_queue p).mp (by rw [hq]; exact List.mem_cons_self)
  have hout : p ∉ s.heat.order := by rw [hs.mem_order, hqueued]; simp
  refine hs.regrant p .granted rfl (fun q => setVol_grant p q _ _ (fun _ => rfl) _)
    ⟨hs.queue_nodup.erase p, fun q => ?_⟩ ⟨?_, fun q => ?_⟩
    (fun _ => hs.configured p (.inr (by simp [hqueued]))) (fun _ => .inr hload)
  · exact (mem_erase_ite hs.queue_nodup p q).trans (by simp)
  · exact hs.order_nodup.append (List.nodup_singleton p) (by simpa using hout)
  · change q ∈ s.heat.order ++ [p] ↔ _
    split
    · next e => simp [e]
    · next e => simp [Ne.symm e]

/-- A change that leaves the queue, the order, the grants and the budget alone, and the sessions and configurations
where they are. -/
theorem HeatCore.frame (hs : HeatCore s) (hheat : t.heat = s.heat) (hgrant : ∀ p, (t.vol p).grant = (s.vol p).grant)
    (hses : ∀ p, (t.session p).isSome = (s.session p).isSome) (hconf : ∀ p, (t.record p).config = (s.record p).config)
    (hb : t.ret.budget = s.ret.budget) : HeatCore t :=
  hs.of_same ⟨by rw [hheat], by rw [hheat], hgrant, hses, hconf⟩ (hb ▸ hs.within)

theorem session_set {r : Retained} {p q : PosIx} (o : Option Session) (h : q ≠ p) :
    (r.sessions.set p.val o)[q.val] = r.sessions[q.val] := by
  have hv : p.val ≠ q.val := fun e => h (Fin.ext e.symm)
  simp [hv]

/-- The law under an entry that changes the session of one position. -/
theorem HeatCore.journalled (hs : HeatCore s) (p : PosIx) (e : JournalEntry)
    (hother : ∀ q, q ≠ p → (e.session.sessions s.ret.sessions)[q.val] = s.ret.sessions[q.val])
    (hopen : (e.session.sessions s.ret.sessions)[p.val].isSome = true → (s.session p).isSome = true
      ∨ (s.configured p = true ∧ s.committed + s.motorLoad p ≤ s.ret.budget)) :
    HeatCore (journalled e s) := by
  refine hs.resession p (by rw [journalled_eq]) (by rw [journalled_eq]) (by rw [journalled_ret, applyEntry_eq])
    (by rw [journalled_ret, applyEntry_eq]) (fun q hq => ?_) fun h => hopen ?_
  · rw [session_journalled]; exact hother q hq
  · rwa [session_journalled] at h

/-- Every move of the room keeps the law, but for its clause about SAG (R120, R125, R126). -/
theorem HeatCore.move (hs : HeatCore s) (m : Move s t) : HeatCore t := by
  cases m with
  | vol p f _ hg _ => exact hs.frame rfl (fun q => vol_grant_setVol p q f hg) (fun _ => rfl) (fun _ => rfl) rfl
  | term => exact hs.frame rfl (fun _ => rfl) (fun _ => rfl) (fun _ => rfl) rfl
  | bus => exact hs.frame rfl (fun _ => rfl) (fun _ => rfl) (fun _ => rfl) rfl
  | record p f _ h =>
    refine hs.frame rfl (fun _ => rfl) (fun _ => rfl) (fun q => ?_) rfl
    rw [State.record_setRecord]
    split
    · next e => subst e; exact h _
    · rfl
  | session p f =>
    refine hs.frame rfl (fun _ => rfl) (fun q => ?_) (fun _ => rfl) rfl
    rw [State.session_setSession]
    split
    · next e => subst e; exact Option.isSome_map
    · rfl
  | fault => exact hs.frame rfl (fun _ => rfl) (fun _ => rfl) (fun _ => rfl) rfl
  | endGrant p => exact hs.endGrant p
  | startRelease p _ h => exact hs.startRelease p h
  | joinQueue p _ h => exact hs.joinQueue p h
  | giveGrant p rest _ hq hm => exact hs.giveGrant hq hm
  | budget n _ h => exact hs.of_same ⟨rfl, rfl, fun _ => rfl, fun _ => rfl, fun _ => rfl⟩ h
  | hold p ses ses' id f _ h _ =>
    exact hs.journalled p _ (fun q hq => session_set _ hq) fun _ => .inl (by rw [h]; rfl)
  | cancel p ses id f _ h _ =>
    exact hs.journalled p _ (fun q hq => session_set _ hq) fun _ => .inl (by rw [h]; rfl)
  | close p ses id f r _ h _ =>
    exact hs.journalled p _ (fun q hq => session_set _ hq) fun _ => .inl (by rw [h]; rfl)
  | beginSession p ses id f _ _ _ _ hconf hload =>
    exact hs.journalled p _ (fun q hq => session_set _ hq) fun _ => .inr ⟨hconf, hload⟩

theorem HeatCore.moves (hs : HeatCore s) (m : Moves s t) : HeatCore t := by
  induction m with
  | refl => exact hs
  | tail _ m ih => exact ih.move m

/-- The sag state stands, and while it is not NORMAL no grant is given (R127, R134). -/
structure NoGrantInSag (s t : State) : Prop where
  sag : t.heat.sag = s.heat.sag
  kept : s.heat.sag ≠ .normal → ∀ p, (t.vol p).grant = .granted → (s.vol p).grant = .granted

theorem NoGrantInSag.refl (s : State) : NoGrantInSag s s := ⟨rfl, fun _ _ h => h⟩

theorem NoGrantInSag.trans {u : State} (h : NoGrantInSag s t) (k : NoGrantInSag t u) : NoGrantInSag s u :=
  ⟨k.sag.trans h.sag, fun hsag p hp => h.kept hsag p (k.kept (h.sag ▸ hsag) p hp)⟩

theorem NoGrantInSag.of_regrant (p : PosIx) (g : Grant) (hsag : t.heat.sag = s.heat.sag)
    (hgrant : ∀ q, (t.vol q).grant = if p = q then g else (s.vol q).grant)
    (hg : g = .granted → s.heat.sag = .normal) : NoGrantInSag s t := by
  refine ⟨hsag, fun hn q hq => ?_⟩
  rw [hgrant] at hq
  split at hq
  · exact absurd (hg hq) hn
  · exact hq

theorem NoGrantInSag.of_same (hsag : t.heat.sag = s.heat.sag) (hgrant : ∀ p, (t.vol p).grant = (s.vol p).grant) :
    NoGrantInSag s t := ⟨hsag, fun _ p hp => hgrant p ▸ hp⟩

theorem NoGrantInSag.journalled (e : JournalEntry) (s : State) : NoGrantInSag s (journalled e s) :=
  .of_same (by rw [journalled_eq]) fun p => by rw [journalled_eq]; rfl

theorem Move.noGrantInSag (m : Move s t) : NoGrantInSag s t := by
  cases m with
  | vol p f _ hg _ => exact .of_same rfl fun q => vol_grant_setVol p q f hg
  | term => exact .of_same rfl fun _ => rfl
  | bus => exact .of_same rfl fun _ => rfl
  | record => exact .of_same rfl fun _ => rfl
  | session => exact .of_same rfl fun _ => rfl
  | fault => exact .of_same rfl fun _ => rfl
  | endGrant p => exact .of_regrant p .none rfl (fun q => setVol_grant p q _ _ (fun _ => rfl) _) (fun h => nomatch h)
  | startRelease p =>
    exact .of_regrant p .releasing rfl (fun q => setVol_grant p q _ _ (fun _ => rfl) _) (fun h => nomatch h)
  | joinQueue p => exact .of_regrant p .queued rfl (fun q => setVol_grant p q _ _ (fun _ => rfl) _) (fun h => nomatch h)
  | giveGrant p rest _ _ hm =>
    exact .of_regrant p .granted rfl (fun q => setVol_grant p q _ _ (fun _ => rfl) _)
      fun _ => (State.mayGrant_iff.mp hm).1
  | budget => exact .of_same rfl fun _ => rfl
  | hold => exact .journalled _ _
  | cancel => exact .journalled _ _
  | close => exact .journalled _ _
  | beginSession => exact .journalled _ _

theorem Moves.noGrantInSag (m : Moves s t) : NoGrantInSag s t := by
  induction m with
  | refl => exact .refl _
  | tail _ m ih => exact ih.trans m.noGrantInSag

/-- The whole law is kept by the operations of the room. -/
theorem heatLaw_moves (hs : HeatLaw s) (m : Moves s t) : HeatLaw t := by
  obtain ⟨hcore, hsag⟩ := heatLaw_iff.mp hs
  have k := m.noGrantInSag
  exact heatLaw_iff.mpr ⟨hcore.moves m, fun hn p hp => hsag (k.sag ▸ hn) p (k.kept (k.sag ▸ hn) p hp)⟩

end Sys2Proof.Machine
end

section
/-! The card, price and band tables within their capacities and in their canonical order (R59, R82, R85; log
entry 24): what each request that writes one of them makes of it. -/

namespace Sys2Proof.Machine

/-! ## Cards -/

/-- The card table holds no more than it may, rising by id. -/
def CardsLaw (cs : List Card) : Prop :=
  cs.length ≤ Config.cardCapacity ∧ cs.Pairwise fun a b => a.id.toNat < b.id.toNat

/-- A record that is put in place of one with its id adds none. -/
theorem length_putCard_of_mem {c x : Card} {cs : List Card} (h : cs.Pairwise fun a b => a.id.toNat < b.id.toNat)
    (hx : x ∈ cs) (hid : x.id = c.id) : (putCard c cs).length = cs.length := by
  induction cs with
  | nil => simp at hx
  | cons y ys ih =>
    obtain ⟨hy, hys⟩ := List.pairwise_cons.mp h
    unfold putCard
    by_cases he : y.id = c.id
    · rw [if_pos he]; simp
    · have hmem : x ∈ ys := (List.mem_cons.mp hx).resolve_left fun e => he (e ▸ hid)
      have hlt := hy x hmem
      rw [if_neg he, if_neg (by rw [← hid]; omega), List.length_cons, ih hys hmem, List.length_cons]

theorem mem_of_card {s : State} {id : CardId} {c : Card} (h : s.card id = some c) : c ∈ s.ret.cards ∧ c.id = id :=
  ⟨List.mem_of_find?_eq_some h, by simpa using List.find?_some h⟩

/-- Putting the record of a known card keeps the law. -/
theorem CardsLaw.put_known {c x : Card} {cs : List Card} (h : CardsLaw cs) (hx : x ∈ cs) (hid : x.id = c.id) :
    CardsLaw (putCard c cs) :=
  ⟨(length_putCard_of_mem h.2 hx hid).trans_le h.1, putCard_rising h.2⟩

/-- Putting any record keeps the law while there is room. -/
theorem CardsLaw.put_room {c : Card} {cs : List Card} (h : CardsLaw cs) (hroom : cs.length < Config.cardCapacity) :
    CardsLaw (putCard c cs) :=
  ⟨(length_putCard c cs).trans hroom, putCard_rising h.2⟩

theorem CardsLaw.drop {cs : List Card} (id : CardId) (h : CardsLaw cs) : CardsLaw (dropCard id cs) :=
  ⟨(List.length_filter_le _ _).trans h.1, dropCard_rising h.2⟩

/-- A change that leaves every id keeps the law. -/
theorem CardsLaw.map {cs : List Card} {f : Card → Card} (hf : ∀ c, (f c).id = c.id) (h : CardsLaw cs) :
    CardsLaw (cs.map f) :=
  ⟨by simpa using h.1, List.pairwise_map.mpr (by simpa only [hf] using h.2)⟩

/-! ## Prices -/

/-- The price table holds no more than it may, rising by key, each key a program of its class. -/
def PricesLaw (es : List PriceEntry) : Prop :=
  es.length ≤ Config.priceCapacity ∧ es.Pairwise (fun a b => a.rank < b.rank)
    ∧ ∀ e ∈ es, 1 ≤ e.program ∧ e.program ≤ 15

/-- The key as a number tells the keys apart. -/
theorem PriceEntry.hasKey_of_rank {a b : PriceEntry} (ha : a.program ≤ 15) (hb : b.program ≤ 15)
    (h : a.rank = b.rank) : a.hasKey b.cls b.program = true := by
  rw [PriceEntry.hasKey_iff]
  unfold PriceEntry.rank at h
  have hinj : ∀ c d : MachineClass, c.code = d.code → c = d := fun c d => by
    cases c <;> cases d <;> simp [MachineClass.code]
  have hcls : a.cls.code = b.cls.code := by omega
  exact ⟨hinj _ _ hcls, by omega⟩

theorem mem_putPrice {e x : PriceEntry} {es : List PriceEntry} (h : x ∈ putPrice e es) : x = e ∨ x ∈ es := by
  induction es with
  | nil => simpa [putPrice] using h
  | cons y ys ih =>
    unfold putPrice at h
    split at h
    · rcases List.mem_cons.mp h with h | h <;> simp [h]
    · split at h
      · simpa using h
      · rcases List.mem_cons.mp h with h | h
        · simp [h]
        · rcases ih h with h | h <;> simp [h]

theorem putPrice_rising {e : PriceEntry} {es : List PriceEntry} (he : e.program ≤ 15)
    (hp : ∀ x ∈ es, x.program ≤ 15) (h : es.Pairwise fun a b => a.rank < b.rank) :
    (putPrice e es).Pairwise fun a b => a.rank < b.rank := by
  induction es with
  | nil => simp [putPrice]
  | cons x xs ih =>
    obtain ⟨hx, hxs⟩ := List.pairwise_cons.mp h
    obtain ⟨hxp, hxsp⟩ := List.forall_mem_cons.mp hp
    unfold putPrice
    split
    · next hk =>
      obtain ⟨hc, hpr⟩ := (PriceEntry.hasKey_iff ..).mp hk
      have hrank : e.rank = x.rank := by rw [PriceEntry.rank, PriceEntry.rank, hc, hpr]
      exact List.pairwise_cons.mpr ⟨fun y hy => hrank.trans_lt (hx y hy), hxs⟩
    · next hk =>
      split
      · next hlt =>
        refine List.pairwise_cons.mpr ⟨fun y hy => ?_, h⟩
        rcases List.mem_cons.mp hy with rfl | hy
        · exact hlt
        · exact hlt.trans (hx y hy)
      · next hge =>
        refine List.pairwise_cons.mpr ⟨fun y hy => ?_, ih hxsp hxs⟩
        rcases mem_putPrice hy with rfl | hy
        · exact Nat.lt_of_le_of_ne (Nat.le_of_not_lt hge) fun e => hk (PriceEntry.hasKey_of_rank hxp he e)
        · exact hx y hy

theorem length_putPrice_le (e : PriceEntry) (es : List PriceEntry) : (putPrice e es).length ≤ es.length + 1 := by
  induction es with
  | nil => simp [putPrice]
  | cons x xs ih =>
    unfold putPrice
    split
    · simp
    · split
      · simp
      · simpa using ih

/-- An entry that is put in place of one with its key adds none. -/
theorem length_putPrice_of_mem {e x : PriceEntry} {es : List PriceEntry} (h : es.Pairwise fun a b => a.rank < b.rank)
    (hx : x ∈ es) (hkey : x.hasKey e.cls e.program = true) : (putPrice e es).length = es.length := by
  induction es with
  | nil => simp at hx
  | cons y ys ih =>
    obtain ⟨hy, hys⟩ := List.pairwise_cons.mp h
    unfold putPrice
    split
    · simp
    · next hk =>
      have hmem : x ∈ ys := (List.mem_cons.mp hx).resolve_left fun e => hk (e ▸ hkey)
      obtain ⟨hc, hp⟩ := (PriceEntry.hasKey_iff ..).mp hkey
      have hrank : x.rank = e.rank := by rw [PriceEntry.rank, PriceEntry.rank, hc, hp]
      have hlt := hy x hmem
      rw [if_neg (by rw [← hrank]; exact Nat.lt_asymm hlt), List.length_cons, ih hys hmem, List.length_cons]

theorem PricesLaw.put {e : PriceEntry} {es : List PriceEntry} (h : PricesLaw es)
    (he : 1 ≤ e.program ∧ e.program ≤ 15)
    (hroom : (findPrice e.cls e.program es).isNone = true → es.length < Config.priceCapacity) :
    PricesLaw (putPrice e es) := by
  obtain ⟨hlen, hrise, hprog⟩ := h
  refine ⟨?_, putPrice_rising he.2 (fun x hx => (hprog x hx).2) hrise, fun x hx => ?_⟩
  · cases hf : findPrice e.cls e.program es with
    | none => exact (length_putPrice_le e es).trans (hroom (by rw [hf]; rfl))
    | some x =>
      have hk : x.hasKey e.cls e.program = true := by simpa using List.find?_some hf
      exact (length_putPrice_of_mem hrise (List.mem_of_find?_eq_some hf) hk).trans_le hlen
  · rcases mem_putPrice hx with rfl | hx
    · exact he
    · exact hprog x hx

theorem PricesLaw.filter {es : List PriceEntry} (f : PriceEntry → Bool) (h : PricesLaw es) : PricesLaw (es.filter f) :=
  ⟨(List.length_filter_le _ _).trans h.1, h.2.1.filter _, fun e he => h.2.2 e (List.mem_filter.mp he).1⟩

/-- An entry that LOAD PRICE gives names a program (R83). -/
theorem program_priceEntry {cls program : Byte} {base ph pc : BitVec 16} {n : Byte} {pairs : List (Byte × BitVec 16)}
    {e : PriceEntry} (h : priceEntry cls program base ph pc n pairs = some e) : 1 ≤ e.program ∧ e.program ≤ 15 := by
  unfold priceEntry at h
  split at h
  · split at h
    · next hok =>
      simp only [Bool.and_eq_true, decide_eq_true_eq] at hok
      split at h <;> split at h <;> simp only [Option.some.injEq, reduceCtorEq] at h
      · subst h; exact ⟨hok.1.2, hok.2⟩
      · subst h; exact ⟨hok.1.2, hok.2⟩
    · exact nomatch h
  · exact nomatch h

/-! ## The law of the store -/

/-- The law of the store is the laws of its tables, of the fault queue, and of the sessions with the settlement
queue. -/
theorem storeLaw_iff {r : Retained} : StoreLaw r ↔ CardsLaw r.cards ∧ PricesLaw r.prices
    ∧ r.bands.length ≤ Config.bandCapacity ∧ r.faults.length ≤ Config.faultCapacity
    ∧ r.openSessions + r.settlements.length ≤ Config.settlementCapacity :=
  ⟨fun ⟨h1, h2, h3, h4, h5, h6, h7, h8⟩ => ⟨⟨h1, h2⟩, ⟨h3, h4, h5⟩, h6, h7, h8⟩,
   fun ⟨⟨h1, h2⟩, ⟨h3, h4, h5⟩, h6, h7, h8⟩ => ⟨h1, h2, h3, h4, h5, h6, h7, h8⟩⟩

end Sys2Proof.Machine
end

section
/-! What an event is made of. While the part is live an event is a sequence of acts: the moves of the room, and beside
them changes of the link, the clock and the pins, the sag state, one table of the store, the card table through the
journal, and the configuration of one position that holds no session and no grant. A start and a stop are no acts. -/

namespace Sys2Proof.Machine

/-- The queues of the link within their capacities (R170, R173). -/
def LinkLaw (l : LinkState) : Prop :=
  l.buffer.length ≤ Config.bufferCapacity ∧ l.transmit.length ≤ Config.transmitCapacity

/-- One act of an event. -/
inductive Act : State → State → Prop
  | room {s t : State} (m : Move s t) : Act s t
  | link (f : LinkState → LinkState) (s : State) (h : LinkLaw s.link → LinkLaw (f s.link)) : Act s (s.setLink f)
  | own (c : Clock) (pins : Pins) (sent : List LineTime) (s : State) :
      Act s { s with clock := c, pins := pins, lastSent := sent }
  | sag (x : Sag) (s : State) (h : x ≠ .normal → s.heat.sag ≠ .normal) :
      Act s (s.setHeat fun h => { h with sag := x })
  | table (f : Retained → Retained) (s : State) (hp : (f s.ret).positions = s.ret.positions)
      (hs : (f s.ret).sessions = s.ret.sessions) (hb : (f s.ret).budget = s.ret.budget)
      (hj : (f s.ret).journal = s.ret.journal) (hl : StoreLaw s.ret → StoreLaw (f s.ret)) : Act s (s.write f)
  | cards (part : CardPart) (s : State) (h : CardsLaw s.ret.cards → CardsLaw (part.cards s.ret.cards)) :
      Act s (journalled { card := part, settlement := none, session := .absent } s)
  | reconfigure (p : PosIx) (f : PosRecord → PosRecord) (g : PosState → PosState) (s : State)
      (hfree : s.configured p = false ∨ s.positionHeld p = false)
      (hg : (g (s.vol p)).grant = (s.vol p).grant ∨ (g (s.vol p)).grant = .none)
      (hq : QueueLaw (s.vol p).orders → QueueLaw (g (s.vol p)).orders) : Act s ((s.setRecord p f).setVol p g)

/-- Some acts, one after the other. -/
abbrev Acts : State → State → Prop := Relation.ReflTransGen Act

variable {s₀ s t : State}

theorem Moves.acts (h : Moves s t) : Acts s t := by
  induction h with
  | refl => exact .refl
  | tail _ m ih => exact ih.tail (.room m)

/-- An operation of the room goes on from where some acts have led. -/
theorem Acts.moves (h : Acts s₀ s) (m : Moves s t) : Acts s₀ t := h.trans m.acts

theorem Act.acts (a : Act s t) : Acts s t := .single a

/-! ## The link -/

theorem LinkLaw.of_same {l l' : LinkState} (hb : l'.buffer = l.buffer) (ht : l'.transmit = l.transmit) (h : LinkLaw l) :
    LinkLaw l' := by rwa [LinkLaw, hb, ht]

theorem setLink_acts (f : LinkState → LinkState) (hb : (f s.link).buffer = s.link.buffer)
    (ht : (f s.link).transmit = s.link.transmit) : Acts s (s.setLink f) :=
  (Act.link f s (.of_same hb ht)).acts

theorem startFrame_acts (s : State) : Acts s (startFrame s) := by
  unfold startFrame
  split
  · exact setLink_acts _ rfl rfl
  · exact .refl

theorem setReceiver_acts (r : Receiver) (s : State) : Acts s (setReceiver r s) := setLink_acts _ rfl rfl

theorem takeGo_acts (s : State) : Acts s (takeGo s) := (setLink_acts _ rfl rfl).trans (startFrame_acts _)

theorem bufferEmptied_acts (s : State) : Acts s (bufferEmptied s) := by
  unfold bufferEmptied
  split
  · exact (setLink_acts _ rfl rfl).trans (setLink_acts _ rfl rfl)
  · exact .refl

theorem popFrame_acts (s : State) : Acts s (popFrame s) := by
  unfold popFrame
  split
  · exact .refl
  · next f rest ht =>
    have first : Acts s (s.setLink fun l => { l with transmit := rest, sending := false }) :=
      (Act.link _ s fun ⟨hb, hlen⟩ => ⟨hb, by rw [ht] at hlen; exact (Nat.le_succ _).trans hlen⟩).acts
    exact first.tail (.own _ _ _ _)

/-! ## The retained tables -/

theorem table_acts (f : Retained → Retained) (hp : (f s.ret).positions = s.ret.positions)
    (hs : (f s.ret).sessions = s.ret.sessions) (hb : (f s.ret).budget = s.ret.budget)
    (hj : (f s.ret).journal = s.ret.journal) (hl : StoreLaw s.ret → StoreLaw (f s.ret)) : Acts s (s.write f) :=
  (Act.table f s hp hs hb hj hl).acts

/-- A card record that stands in the table is written again. -/
theorem journalCard_acts {id : CardId} {c c' : Card} (h : s.card id = some c) (hid : c'.id = c.id) :
    Acts s (journalCard c' s) :=
  (Act.cards (.record c') s fun law => law.put_known (mem_of_card h).1 hid.symm).acts

theorem rollover_acts (s : State) : Acts s (rollover s) :=
  (Act.cards .rollover s fun law => law.map fun _ => rfl).acts

/-! ## The room with the requests of the position table -/

theorem settleSlot_acts (s : State) : Acts s (settleSlot s) := by
  unfold settleSlot
  split <;> first | exact (setBus_moves _ .refl).acts | exact .refl

theorem discardVisit_acts (node : Node) (s : State) : Acts s (discardVisit node s) := (setBus_moves _ .refl).acts

theorem setVol_self (p : PosIx) (s : State) : s.setVol p (fun v => v) = s := by
  simp [State.setVol]

theorem configured_of_config_none {p : PosIx} (h : (s.record p).config = none) : s.configured p = false := by
  rw [State.configured, h]; rfl

theorem configureNew_acts (p : PosIx) (cfg : PosConfig) (h : (s.record p).config = none) :
    Acts s (configureNew p cfg s) := by
  have first := Act.reconfigure p (fun _ => { config := some cfg, oos := false, fault := none })
    (fun _ => { PosState.new with changed := true }) s (.inl (configured_of_config_none h)) (.inr rfl)
    fun _ => by decide
  exact (first.acts.moves (askHeatOff_moves p .refl)).trans (settleSlot_acts _)

theorem configureAgain_acts (p : PosIx) (old cfg : PosConfig) (h : s.positionHeld p = false) :
    Acts s (configureAgain p old cfg s) := by
  unfold configureAgain
  split
  · have := Act.reconfigure p (fun r => { r with config := some cfg }) (fun v => v) s (.inr h) (.inl rfl) id
    rw [setVol_self] at this
    exact this.acts
  · exact (Act.reconfigure p _ (fun v => { v with mismatch := false }) s (.inr h) (.inl rfl) id).acts

theorem removePosition_acts (p : PosIx) (h : s.positionHeld p = false) : Acts s (removePosition p s) := by
  have first := Act.reconfigure p (fun _ => PosRecord.empty) (fun _ => { PosState.new with changed := true }) s
    (.inr h) (.inr rfl) fun _ => by decide
  exact (first.acts.trans (discardVisit_acts _ _)).trans (settleSlot_acts _)

theorem setService_acts (p : PosIx) (oos : Bool) (s : State) : Acts s (setService p oos s) := by
  unfold setService
  dsimp only
  have first : Moves s (withDisplay p (fun r => { r with oos := oos }) s) := withDisplay_moves p _ (fun _ => rfl) .refl
  split
  · exact first.acts
  · exact (markChanged_moves p first).acts

theorem setAllVol_moves (f : PosIx → PosState → PosState)
    (hf : ∀ p v, (f p v).grant = v.grant ∧ (f p v).orders = v.orders) (h : Moves s₀ s) : Moves s₀ (s.setAllVol f) :=
  Moves.foldl _ (fun p _ _ h => setVol_moves p (f p) (hf p _) h) allPositions h

theorem setTerm_acts (t : TermIx) (f : TermState → TermState)
    (hf : OutboxLaw (s.terminal t).outbox → OutboxLaw (f (s.terminal t)).outbox) : Acts s (s.setTerm t f) :=
  (Act.room (.term t f s hf)).acts

theorem setTerminal_acts (t : TermIx) (on : Bool) (s : State) : Acts s (s.setTerminal t on) :=
  table_acts _ rfl rfl rfl rfl id

/-! ## The budget -/

theorem withdrawDryers_moves (k n : Nat) : ∀ {s : State}, Moves s₀ s → Moves s₀ (withdrawDryers k n s) := by
  induction k with
  | zero => exact id
  | succ k ih =>
    intro s h
    unfold withdrawDryers
    split
    · exact h
    · split
      · exact h
      · exact ih (withdraw_moves _ h)

theorem applyBudget_acts (n : Nat) (s : State) : Acts s (applyBudget n s) := by
  unfold applyBudget
  split
  · next h => exact (evaluate_moves (.single (.budget n s h))).acts
  · exact (table_acts (s := s) (fun r => { r with pendingBudget := some n }) rfl rfl rfl rfl id).moves
      (withdrawDryers_moves _ _ .refl)

end Sys2Proof.Machine
end

section
/-! Every request is a sequence of acts (section 10-4). -/

namespace Sys2Proof.Machine

variable {s₀ s t : State}

theorem processSetConfig_acts (mask busRate jamLimit : BitVec 16)
    (lostLimit startLimit pauseLimit doneLimit heatSlice settleTime attnMask : Byte) (s : State) :
    Acts s (processSetConfig mask busRate jamLimit lostLimit startLimit pauseLimit doneLimit heatSlice settleTime
      attnMask s).state :=
  (table_acts _ rfl rfl rfl rfl id).moves (checkJam_moves .refl)

theorem processRestart_acts (s : State) : Acts s (processRestart s).state := by
  unfold processRestart
  split
  · exact setLink_acts (fun l => { l with restarting := true }) rfl rfl
  · exact .refl

theorem processSetClock_acts (minute : BitVec 16) (second : Byte) (s : State) :
    Acts s (processSetClock minute second s).state := by
  unfold processSetClock
  split
  · exact .refl
  · have clock : Acts s { s with clock := { minute := minute.toNat, second := second.toNat, valid := true } } :=
      (Act.own _ s.pins s.lastSent s).acts
    dsimp only [accept]
    split
    · exact clock.trans (rollover_acts _)
    · exact clock

theorem processLoadPrice_acts (cls program : Byte) (base ph pc : BitVec 16) (n : Byte)
    (pairs : List (Byte × BitVec 16)) (s : State) :
    Acts s (processLoadPrice cls program base ph pc n pairs s).state := by
  unfold processLoadPrice
  split
  · exact .refl
  · next e he =>
    split
    · exact .refl
    · next hroom =>
      simp only [Bool.and_eq_true, decide_eq_true_eq, not_and, Nat.not_le] at hroom
      refine table_acts (s := s) (fun r => { r with prices := putPrice e r.prices }) rfl rfl rfl rfl fun law => ?_
      obtain ⟨hc, hp, rest⟩ := storeLaw_iff.mp law
      exact storeLaw_iff.mpr ⟨hc, hp.put (program_priceEntry he) hroom, rest⟩

theorem processRemovePrice_acts (cls program : Byte) (s : State) :
    Acts s (processRemovePrice cls program s).state := by
  unfold processRemovePrice
  split
  · exact .refl
  · next c _ =>
    split
    · split
      · exact .refl
      · refine table_acts (s := s) (fun r => { r with prices := r.prices.filter fun e => !e.hasKey c program.toNat })
          rfl rfl rfl rfl fun law => ?_
        obtain ⟨hc, hp, rest⟩ := storeLaw_iff.mp law
        exact storeLaw_iff.mpr ⟨hc, hp.filter _, rest⟩
    · exact .refl

theorem processLoadBands_acts (bands : List (BitVec 16 × Byte × Byte)) (s : State) :
    Acts s (processLoadBands bands s).state := by
  unfold processLoadBands
  split
  · exact .refl
  · next bs _ =>
    split
    · next hok =>
      simp only [Bool.and_eq_true, decide_eq_true_eq] at hok
      refine table_acts (s := s) (fun r => { r with bands := bs }) rfl rfl rfl rfl fun law => ?_
      obtain ⟨hc, hp, -, rest⟩ := storeLaw_iff.mp law
      exact storeLaw_iff.mpr ⟨hc, hp, hok.1, rest⟩
    · exact .refl

theorem processLoadMachine_acts (addr cls heater motor minimum maximum dflt : Byte) (s : State) :
    Acts s (processLoadMachine addr cls heater motor minimum maximum dflt s).state := by
  unfold processLoadMachine
  split
  · split
    · next h => exact configureNew_acts _ _ h
    · split
      · exact .refl
      · next h => exact configureAgain_acts _ _ _ (by simpa using h)
  · exact .refl

theorem processRemoveMachine_acts (addr : Byte) (s : State) : Acts s (processRemoveMachine addr s).state := by
  unfold processRemoveMachine
  split
  · exact .refl
  · split
    · exact .refl
    · split
      · exact .refl
      · next h => exact removePosition_acts _ (by simpa using h)

theorem processService_acts (addr value : Byte) (s : State) : Acts s (processService addr value s).state := by
  unfold processService
  split
  · exact .refl
  · split
    · exact .refl
    · split
      · exact .refl
      · split
        · exact .refl
        · exact setService_acts _ _ _

theorem readEntries_acts (ps : List PosIx) (s : State) : Acts s (readEntries ps s).state := by
  have hf : ∀ (p : PosIx) (v : PosState), let w := if ps.contains p then { v with changed := false } else v
      w.grant = v.grant ∧ w.orders = v.orders := fun p v => by
    dsimp only
    split <;> exact ⟨rfl, rfl⟩
  exact (setAllVol_moves _ hf .refl).acts

theorem processReadMachines_acts (mode : Byte) (s : State) : Acts s (processReadMachines mode s).state := by
  unfold processReadMachines
  split
  · exact readEntries_acts _ _
  · split
    · exact readEntries_acts _ _
    · exact .refl

theorem processLoadTerminal_acts (addr : Byte) (s : State) : Acts s (processLoadTerminal addr s).state := by
  unfold processLoadTerminal
  split
  · exact .refl
  · split
    · exact .refl
    · exact ((setTerminal_acts _ _ _).trans (setTerm_acts _ _ fun _ => .nil)).trans (settleSlot_acts _)

theorem processRemoveTerminal_acts (addr : Byte) (s : State) : Acts s (processRemoveTerminal addr s).state := by
  unfold processRemoveTerminal
  split
  · exact .refl
  · split
    · exact .refl
    · split
      · exact .refl
      · exact (((setTerminal_acts _ _ _).trans (setTerm_acts _ _ fun _ => .nil)).trans (discardVisit_acts _ _)).trans
          (settleSlot_acts _)

theorem processShowText_acts (addr : Byte) (text : List Byte) (s : State) :
    Acts s (processShowText addr text s).state := by
  unfold processShowText
  split
  · exact .refl
  · split
    · exact .refl
    · split
      · exact .refl
      · split
        · exact .refl
        · split
          · exact .refl
          · next t _ _ _ _ h =>
            exact setTerm_acts t (fun v => { v with outbox := v.outbox ++ [{ body := .text text, tag := none }] })
              fun law => law.appendText (Nat.lt_of_not_le h) rfl rfl

theorem processAddCard_acts (id : CardId) (cls : Byte) (balance : BitVec 24) (discount : Byte) (limit : BitVec 16)
    (s : State) : Acts s (processAddCard id cls balance discount limit s).state := by
  unfold processAddCard
  split
  · exact .refl
  · next c _ =>
    dsimp only
    split
    · exact .refl
    · split
      · exact .refl
      · split
        · exact .refl
        · next hroom => exact (Act.cards (.record _) s fun law => law.put_room (Nat.lt_of_not_le hroom)).acts

theorem processCreditCard_acts (id : CardId) (amount : BitVec 24) (s : State) :
    Acts s (processCreditCard id amount s).state := by
  unfold processCreditCard
  split
  · exact .refl
  · next h =>
    split
    · exact .refl
    · exact journalCard_acts h rfl

theorem processDebitCard_acts (id : CardId) (amount : BitVec 24) (s : State) :
    Acts s (processDebitCard id amount s).state := by
  unfold processDebitCard
  split
  · exact .refl
  · next h =>
    split
    · exact .refl
    · split
      · exact .refl
      · exact journalCard_acts h rfl

theorem processSetCard_acts (id : CardId) (cls discount : Byte) (limit : BitVec 16) (s : State) :
    Acts s (processSetCard id cls discount limit s).state := by
  unfold processSetCard
  split
  · exact .refl
  · next h =>
    split
    · exact .refl
    · split
      · exact .refl
      · exact journalCard_acts h rfl

theorem processCardState_acts (id : CardId) (st : CardState) (s : State) :
    Acts s (processCardState id st s).state := by
  unfold processCardState
  split
  · exact .refl
  · next h => exact journalCard_acts h rfl

theorem processReadCard_acts (id : CardId) (s : State) : Acts s (processReadCard id s).state := by
  unfold processReadCard
  split <;> exact .refl

theorem processRemoveCard_acts (id : CardId) (s : State) : Acts s (processRemoveCard id s).state := by
  unfold processRemoveCard
  split
  · exact .refl
  · split
    · exact .refl
    · exact (Act.cards (.removal id) s fun law => law.drop id).acts

theorem processSetBudget_acts (value : Byte) (s : State) : Acts s (processSetBudget value s).state := by
  unfold processSetBudget
  split
  · exact .refl
  · dsimp only [accept]
    exact applyBudget_acts _ _

theorem processReleaseHeat_acts (addr : Byte) (s : State) : Acts s (processReleaseHeat addr s).state := by
  unfold processReleaseHeat
  split
  · exact .refl
  · split
    · exact .refl
    · split
      · exact (committedFell_moves (endGrant_moves _ .refl)).acts
      · exact .refl

theorem processLoadFaultClass_acts (code severity policy auto : Byte) (s : State) :
    Acts s (processLoadFaultClass code severity policy auto s).state := by
  unfold processLoadFaultClass
  split
  · exact .refl
  · split
    · exact table_acts (s := s) (fun r => { r with classes := r.classes.set _ _ }) rfl rfl rfl rfl id
    · exact .refl

theorem processClearFault_acts (addr : Byte) (s : State) : Acts s (processClearFault addr s).state := by
  unfold processClearFault
  split
  · exact .refl
  · split
    · exact .refl
    · split
      · exact .refl
      · split
        · exact .refl
        · exact (clearActive_moves _ .refl).acts

theorem processReadFaults_acts (s : State) : Acts s (processReadFaults s).state := by
  refine table_acts (s := s) (fun r => { r with faults := r.faults.drop Config.readCount, overflow := false })
    rfl rfl rfl rfl fun law => ?_
  obtain ⟨hc, hp, hb, hf, rest⟩ := storeLaw_iff.mp law
  exact storeLaw_iff.mpr ⟨hc, hp, hb, (List.drop_sublist _ _).length_le.trans hf, rest⟩

/-- What is left behind a released record is no more than there was. -/
theorem length_dropThrough_le (k : Nat) (rs : List Settlement) : (dropThrough k rs).length ≤ rs.length := by
  induction rs with
  | nil => exact Nat.le_refl _
  | cons r rest ih =>
    unfold dropThrough
    split
    · exact Nat.le_succ _
    · exact ih.trans (Nat.le_succ _)

theorem processReleaseThrough_acts (k : BitVec 16) (s : State) : Acts s (processReleaseThrough k s).state := by
  unfold processReleaseThrough
  split
  · exact .refl
  · split
    · exact .refl
    · refine table_acts (s := s) (fun r => { r with settlements := dropThrough k.toNat r.settlements })
        rfl rfl rfl rfl fun law => ?_
      obtain ⟨hc, hp, hb, hf, hs⟩ := storeLaw_iff.mp law
      exact storeLaw_iff.mpr ⟨hc, hp, hb, hf,
        (Nat.add_le_add_left (length_dropThrough_le k.toNat s.ret.settlements) s.ret.openSessions).trans hs⟩

theorem processForceEnd_acts (addr policy : Byte) (s : State) : Acts s (processForceEnd addr policy s).state := by
  unfold processForceEnd
  split
  · exact .refl
  · split
    · exact .refl
    · split
      · exact .refl
      · exact (forceEndSession_moves _ _ .refl).acts

/-- Every request is a sequence of acts. -/
theorem process_acts (r : Request) (s : State) : Acts s (process r s).state := by
  cases r with
  | status => exact setLink_acts (fun l => { l with restarted := false }) rfl rfl
  | setConfig => exact processSetConfig_acts ..
  | restart => exact processRestart_acts s
  | setClock => exact processSetClock_acts ..
  | loadMachine => exact processLoadMachine_acts ..
  | removeMachine => exact processRemoveMachine_acts ..
  | service => exact processService_acts ..
  | readMachines => exact processReadMachines_acts ..
  | loadTerminal => exact processLoadTerminal_acts ..
  | removeTerminal => exact processRemoveTerminal_acts ..
  | showText => exact processShowText_acts ..
  | loadPrice => exact processLoadPrice_acts ..
  | removePrice => exact processRemovePrice_acts ..
  | loadBands => exact processLoadBands_acts ..
  | addCard => exact processAddCard_acts ..
  | creditCard => exact processCreditCard_acts ..
  | debitCard => exact processDebitCard_acts ..
  | setCard => exact processSetCard_acts ..
  | blockCard => exact processCardState_acts ..
  | unblockCard => exact processCardState_acts ..
  | readCard => exact processReadCard_acts ..
  | removeCard => exact processRemoveCard_acts ..
  | setBudget => exact processSetBudget_acts ..
  | releaseHeat => exact processReleaseHeat_acts ..
  | loadFaultClass => exact processLoadFaultClass_acts ..
  | clearFault => exact processClearFault_acts ..
  | readFaults => exact processReadFaults_acts s
  | readSettlements => exact .refl
  | releaseThrough => exact processReleaseThrough_acts ..
  | forceEnd => exact processForceEnd_acts ..
  | badFrame => exact .refl

/-! ## Requests that reach the link -/

theorem processHead_acts (hroom : s.link.transmit.length < Config.transmitCapacity) : Acts s (processHead s) := by
  unfold processHead
  split
  · exact .refl
  · next w rest hb =>
    have reply : Acts (process w.req s).state (placeReply
        { type := w.type, tag := w.tag, status := (process w.req s).status, payload := (process w.req s).payload }
        rest (process w.req s).state) := by
      obtain ⟨a, b, hl⟩ := process_link w.req s
      refine (Act.link _ _ fun ⟨hbuf, _⟩ => ?_).acts
      rw [hl] at hbuf ⊢
      exact ⟨by rw [hb] at hbuf; exact (Nat.le_succ _).trans hbuf, by rw [List.length_append]; exact hroom⟩
    exact (((process_acts w.req s).trans reply).trans (startFrame_acts _)).trans (bufferEmptied_acts _)

theorem processFor_acts (k : Nat) : ∀ s : State, Acts s (processFor k s) := by
  induction k with
  | zero => exact fun _ => .refl
  | succ k ih =>
    intro s
    unfold processFor
    split
    · next h => exact (processHead_acts (mayProcess_iff.mp h).2.1).trans (ih _)
    · exact .refl

theorem processAll_acts (s : State) : Acts s (processAll s) := processFor_acts _ s

theorem bufferRequest_acts (w : Waiting) (s : State) : Acts s (bufferRequest w s) := by
  unfold bufferRequest
  split
  · exact .refl
  · next hroom =>
    have first : Acts s (s.setLink fun l => { l with buffer := l.buffer ++ [w] }) :=
      (Act.link _ s fun ⟨_, ht⟩ => ⟨by rw [List.length_append]; exact Nat.lt_of_not_le hroom, ht⟩).acts
    dsimp only
    split
    · exact (first.trans (setLink_acts _ rfl rfl)).trans (setLink_acts _ rfl rfl)
    · exact first

theorem takeRequestFrame_acts (w : Waiting) (s : State) : Acts s (takeRequestFrame w s) :=
  (bufferRequest_acts w s).trans (processAll_acts _)

theorem huntByte_acts (b : LineByte) (s : State) : Acts s (huntByte b s) := by
  unfold huntByte
  split
  · exact .refl
  · split
    · exact setReceiver_acts _ _
    · split
      · exact setLink_acts _ rfl rfl
      · split
        · exact takeGo_acts s
        · exact .refl

theorem assembleByte_acts (old : List LineByte) (b : LineByte) (s : State) : Acts s (assembleByte old b s) := by
  unfold assembleByte
  dsimp only
  split
  · exact .refl
  · split
    · exact setReceiver_acts _ _
    · split
      · exact setReceiver_acts _ _
      · split
        · exact setReceiver_acts _ _
        · exact (setReceiver_acts _ _).trans (takeRequestFrame_acts _ _)

theorem receiveByte_acts (s : State) (b : LineByte) : Acts s (receiveByte s b) := by
  unfold receiveByte
  split
  · exact huntByte_acts b s
  · exact assembleByte_acts _ b s
  · exact .refl

theorem receiveBytes_acts (bytes : List LineByte) : ∀ s : State, Acts s (receiveBytes bytes s) := by
  unfold receiveBytes
  induction bytes with
  | nil => exact fun _ => .refl
  | cons b rest ih => exact fun s => (receiveByte_acts s b).trans (ih _)

theorem resetLink_acts (s : State) : Acts s (resetLink s) :=
  (Act.link _ s fun _ => ⟨Nat.zero_le _, Nat.zero_le _⟩).acts

end Sys2Proof.Machine
end

section
/-! What a step can do: the acts of one event of a live part, a sag, a start, or nothing but a change of the supply
of a part that is then not live. -/

namespace Sys2Proof.Machine

variable {s₀ s t : State}

/-! ## The bus -/

theorem execVisit_acts (s : State) : Acts s (if s.mayVisit then startVisit s else s) := by
  split
  · exact (startVisit_moves .refl).acts
  · exact .refl

theorem frameSent_moves (h : Moves s₀ s) : Moves s₀ (match s.bus.visit with
    | none => s
    | some v => if v.phase = .sending then setPhase v .window s else s) := by
  split
  · exact h
  · split
    · exact setBus_moves _ h
    · exact h

/-! ## Time -/

theorem tick_acts (s : State) : Acts s (tick s) := by
  have minutes : Moves s (allPositions.foldl (fun s p => countMinute p s) s) :=
    Moves.foldl _ (fun p _ _ h => countMinute_moves p h) _ .refl
  have clock : ∀ s : State, Acts s (advanceClock s) := fun s => by
    have set : Acts s { s with clock := s.clock.advance } := (Act.own _ s.pins s.lastSent s).acts
    unfold advanceClock
    dsimp only
    split
    · exact set.trans (rollover_acts _)
    · exact set
  have sessions : ∀ s : State, Moves s (allPositions.foldl (fun s p => tickSession p s) s) := fun s =>
    Moves.foldl _ (fun p _ _ h => tickSession_moves p h) _ .refl
  have slices : ∀ s : State, Moves s (s.setAllVol tickSlice) := fun s =>
    setAllVol_moves _ (fun _ _ => ⟨rfl, rfl⟩) .refl
  have sag : ∀ s : State, Acts s (s.setHeat fun h => { h with sag := h.sag.tick }) := fun s =>
    (Act.sag s.heat.sag.tick s fun hx hn => hx (by rw [hn]; rfl)).acts
  exact minutes.acts.trans <| (clock _).trans <| (sessions _).acts.trans <| (slices _).acts.trans (sag _)

theorem releaseSag_acts (s : State) : Acts s (releaseSag s) := by
  refine (Act.sag _ s fun hx => ?_).acts
  split at hx
  · next h => rw [h]; decide
  · exact hx

theorem expireSlice_moves (p : PosIx) (h : Moves s₀ s) : Moves s₀ (expireSlice p s) := by
  unfold expireSlice
  split
  · exact setVol_moves p _ ⟨rfl, rfl⟩ h
  · exact withdraw_moves p h

/-- A sag from the moment on at which its state stands (R134). -/
def State.sagging (s : State) : State :=
  { s.setHeat (fun h => { h with sag := .asserted }) with draws := s.draws + 1 }

theorem assertSag_moves (s : State) : Moves s.sagging (assertSag s) :=
  raiseNotice_moves _ _ _ (Moves.foldl _ (fun p _ _ h => withdraw_moves p h) _ .refl)

/-! ## Steps -/

/-- What a step can do. -/
inductive Stepped (s : State) : State → Prop
  | same : Stepped s s
  | acts {t : State} (hl : s.live = true) (h : Acts s.fresh t) : Stepped s t
  | sag (hl : s.live = true) (hp : s.pins.sag = false) : Stepped s (assertSag (setSagPin true s.fresh))
  | start (kind : StartKind) (u : State) (hr : u.ret = s.ret) (ht : u.trail = []) : Stepped s (runStart kind u)
  | off {t : State} (hl : t.live = false) (hpos : t.pos = s.pos) (hterm : t.term = s.term) (hlink : t.link = s.link)
      (hr : ∀ r ∈ t.ret :: t.trail, ∃ x ∈ s.ret :: s.trail, ∃ v, r = { x with valid := v }) : Stepped s t

/-- An event that a live part takes. -/
theorem taking_stepped {f : State → State} (hf : ∀ u : State, Acts u (f u)) (h : taking f s = .next t) :
    Stepped s t := by
  cases hl : s.live with
  | true =>
    rw [taking_of_live f hl, Host.Outcome.next.injEq] at h
    exact h ▸ .acts hl (hf _)
  | false =>
    rw [taking_of_dead f hl, Host.Outcome.next.injEq] at h
    exact h ▸ .same

theorem taking_moves {f : State → State} (hf : ∀ {u : State}, Moves u (f u)) (h : taking f s = .next t) :
    Stepped s t := taking_stepped (fun _ => hf.acts) h

/-- The frame being sent leaves: a start after the RESTART reply, else acts (R173, R177). -/
theorem frameSentOnLink_cases (s : State) :
    (s.restartReplyAhead = true ∧ frameSentOnLink s = runStart .restartRequest (popFrame s))
      ∨ Acts s (frameSentOnLink s) := by
  unfold frameSentOnLink
  split
  · next h => exact .inl ⟨h, rfl⟩
  · exact .inr ((((popFrame_acts s).trans (startFrame_acts _)).trans (processAll_acts _)).trans (startFrame_acts _))

theorem popFrame_ret (s : State) : (popFrame s).ret = s.ret ∧ (popFrame s).trail = s.trail := by
  unfold popFrame
  split <;> exact ⟨rfl, rfl⟩

theorem execReplyFrameSent_stepped (h : execReplyFrameSent s = .next t) : Stepped s t := by
  cases hl : s.live with
  | false =>
    rw [execReplyFrameSent, taking_of_dead _ hl, Host.Outcome.next.injEq] at h
    exact h ▸ .same
  | true =>
    rw [execReplyFrameSent, taking_of_live _ hl, Host.Outcome.next.injEq] at h
    subst h
    split
    · rcases frameSentOnLink_cases s.fresh with ⟨-, h⟩ | h
      · rw [h]; exact .start _ _ (popFrame_ret _).1 (popFrame_ret _).2
      · exact .acts hl h
    · exact .acts hl .refl

theorem execRestartRequest_stepped {strap1 strap0 : Bool} (h : execRestartRequest strap1 strap0 s = .next t) :
    Stepped s t := by
  cases hl : s.live with
  | false =>
    rw [execRestartRequest, taking_of_dead _ hl, Host.Outcome.next.injEq] at h
    exact h ▸ .same
  | true =>
    rw [execRestartRequest, taking_of_live _ hl, Host.Outcome.next.injEq] at h
    subst h
    split
    · rcases frameSentOnLink_cases (setStraps strap1 strap0 s.fresh) with ⟨-, h⟩ | h
      · rw [h]; exact .start _ _ (popFrame_ret _).1 (popFrame_ret _).2
      · exact .acts hl (Relation.ReflTransGen.head (Act.own s.clock _ s.lastSent s.fresh) h)
    · exact .acts hl .refl

theorem retainedCut_mem (s : State) (cut : Nat) : s.retainedCut cut ∈ s.ret :: s.trail := by
  unfold State.retainedCut
  split
  · exact List.mem_cons_self
  · next k =>
    cases h : s.trail[k]? with
    | none => exact List.mem_cons_self
    | some x => exact List.mem_cons_of_mem _ (List.mem_of_getElem? h)

/-- Nothing but the supply and a stop: the part is not live after it. -/
theorem Stepped.off_same {t : State} (hl : t.live = false) (hpos : t.pos = s.pos) (hterm : t.term = s.term)
    (hlink : t.link = s.link) (hr : ∃ v, t.ret = { s.ret with valid := v }) (ht : ∀ r ∈ t.trail, r ∈ s.trail) :
    Stepped s t := by
  refine .off hl hpos hterm hlink fun r hmem => ?_
  rcases List.mem_cons.mp hmem with rfl | hmem
  · exact ⟨s.ret, List.mem_cons_self, hr⟩
  · exact ⟨r, List.mem_cons_of_mem _ (ht r hmem), r.valid, rfl⟩

theorem execPowerUp_stepped {strap1 strap0 : Bool} (h : execPowerUp strap1 strap0 s = .next t) : Stepped s t := by
  rw [execPowerUp, Host.Outcome.next.injEq] at h
  subst h
  dsimp only
  split
  · exact .same
  · split
    · exact .off_same (by simp [State.live, setStraps]) rfl rfl rfl ⟨s.ret.valid, rfl⟩ (by simp [setStraps])
    · exact .start _ _ rfl rfl

theorem execResetPin_stepped {strap1 strap0 : Bool} (h : execResetPin strap1 strap0 s = .next t) : Stepped s t := by
  rw [execResetPin, Host.Outcome.next.injEq] at h
  subst h
  dsimp only
  split
  · split
    · exact .start _ _ rfl rfl
    · next h => exact .off_same (by simp [State.live, h]) rfl rfl rfl ⟨s.ret.valid, rfl⟩ fun _ => id
  · exact .same

theorem execResetNAssert_stepped {cut : Nat} (h : execResetNAssert cut s = .next t) : Stepped s t := by
  rw [execResetNAssert, Host.Outcome.next.injEq] at h
  subst h
  dsimp only
  split
  · refine .off (by simp [State.live]) rfl rfl rfl fun r hr => ?_
    rw [List.mem_singleton.mp hr]
    exact ⟨_, retainedCut_mem s cut, _, rfl⟩
  · exact .off_same (by simp [State.live]) rfl rfl rfl ⟨s.ret.valid, rfl⟩ fun _ => id

theorem execVddFall_stepped {cut : Nat} {vbakHeld : Bool} (h : execVddFall cut vbakHeld s = .next t) :
    Stepped s t := by
  rw [execVddFall, Host.Outcome.next.injEq] at h
  subst h
  dsimp only
  split
  · refine .off (by simp [State.live]) rfl rfl rfl fun r hr => ?_
    rw [List.mem_singleton.mp hr]
    exact ⟨_, retainedCut_mem s cut, _, rfl⟩
  · exact .same

theorem execVbakFall_stepped (h : execVbakFall s = .next t) : Stepped s t := by
  rw [execVbakFall, Host.Outcome.next.injEq] at h
  subst h
  split
  · exact .same
  · next h => exact .off_same (by simp [State.live, h]) rfl rfl rfl ⟨false, rfl⟩ fun _ => id

theorem execSagAssert_stepped (h : execSagAssert s = .next t) : Stepped s t := by
  unfold execSagAssert at h
  cases hl : s.live with
  | true =>
    rw [if_pos hl, taking_of_live _ hl, Host.Outcome.next.injEq] at h
    subst h
    split
    · exact .acts hl .refl
    · next hp => exact .sag hl (by simpa using hp)
  | false =>
    rw [if_neg (by simp [hl]), Host.Outcome.next.injEq] at h
    exact h ▸ .off_same hl rfl rfl rfl ⟨s.ret.valid, rfl⟩ fun _ => id

theorem execSagRelease_stepped (h : execSagRelease s = .next t) : Stepped s t := by
  unfold execSagRelease at h
  cases hl : s.live with
  | true =>
    rw [if_pos hl] at h
    refine taking_stepped (fun u => ?_) h
    split
    · exact (Act.own u.clock _ u.lastSent u).acts.trans (releaseSag_acts _)
    · exact .refl
  | false =>
    rw [if_neg (by simp [hl]), Host.Outcome.next.injEq] at h
    exact h ▸ .off_same hl rfl rfl rfl ⟨s.ret.valid, rfl⟩ fun _ => id

/-- A row whose condition does not hold leaves the state as it is. -/
theorem Acts.ite {c : Prop} [Decidable c] {u : State} (h : c → Acts s u) : Acts s (if c then u else s) := by
  split
  · next hc => exact h hc
  · exact .refl

theorem Acts.ite_not {c : Prop} [Decidable c] {u : State} (h : ¬c → Acts s u) : Acts s (if c then s else u) := by
  split
  · exact .refl
  · next hc => exact h hc

theorem execFlowCharacterSent_acts (s : State) : Acts s (match s.link.flow with
    | none => s
    | some c => if s.link.sending || s.link.receiver == .ignoring then s
      else startFrame { s.setLink (fun l => { l with flow := none }) with lastSent := [sentByte c.byte] }) := by
  split
  · exact .refl
  · refine .ite_not fun _ => ?_
    exact ((setLink_acts (fun l => { l with flow := none }) rfl rfl).tail (.own _ _ _ _)).trans (startFrame_acts _)

theorem execReceiverResume_moves : Moves s (if s.bus.listening || s.bus.jammed then s else
    match (listenAgain s).bus.visit with
    | none => listenAgain s
    | some v =>
      match v.phase with
      | .reply chars true => concludeBroken v chars false true (listenAgain s)
      | .reply _ false => listenAgain s
      | .window => listenAgain s
      | .sending => listenAgain s) := by
  have listen : Moves s (listenAgain s) := setBus_moves _ .refl
  split
  · exact .refl
  · split
    · exact listen
    · split
      · exact concludeBroken_moves _ _ _ _ listen
      · exact listen
      · exact listen
      · exact listen

/-- What the command at the front can do. -/
theorem exec_stepped (i : Instr) (h : exec i s = .next t) : Stepped s t := by
  have request : ∀ r tag, request r tag s = .next t → Stepped s t := fun r tag h =>
    taking_stepped (fun u => takeRequestFrame_acts _ u) h
  cases i with
  | status tag => exact request _ _ h
  | setConfig => exact request _ _ h
  | restart => exact request _ _ h
  | setClock => exact request _ _ h
  | loadMachine => exact request _ _ h
  | removeMachine => exact request _ _ h
  | service => exact request _ _ h
  | readMachines => exact request _ _ h
  | loadTerminal => exact request _ _ h
  | removeTerminal => exact request _ _ h
  | showText => exact request _ _ h
  | loadPrice => exact request _ _ h
  | removePrice => exact request _ _ h
  | loadBands => exact request _ _ h
  | addCard => exact request _ _ h
  | creditCard => exact request _ _ h
  | debitCard => exact request _ _ h
  | setCard => exact request _ _ h
  | blockCard => exact request _ _ h
  | unblockCard => exact request _ _ h
  | readCard => exact request _ _ h
  | removeCard => exact request _ _ h
  | setBudget => exact request _ _ h
  | releaseHeat => exact request _ _ h
  | loadFaultClass => exact request _ _ h
  | clearFault => exact request _ _ h
  | readFaults => exact request _ _ h
  | readSettlements => exact request _ _ h
  | releaseThrough => exact request _ _ h
  | forceEnd => exact request _ _ h
  | badFrame => exact taking_stepped (fun u => takeRequestFrame_acts _ u) h
  | gatewayFrameReceived => exact taking_stepped (fun u => receiveBytes_acts _ u) h
  | gatewayGap =>
    change execGatewayGap s = _ at h
    unfold execGatewayGap at h
    refine taking_stepped (fun u => ?_) h
    split
    · exact setReceiver_acts _ _
    · exact .refl
    · exact .refl
  | hold => exact taking_stepped (fun u => .ite fun _ => setLink_acts _ rfl rfl) h
  | go => exact taking_stepped (fun u => .ite fun _ => takeGo_acts u) h
  | replyFrameSent => exact execReplyFrameSent_stepped h
  | flowCharacterSent => exact taking_stepped execFlowCharacterSent_acts h
  | linkReset => exact taking_stepped resetLink_acts h
  | visit => exact taking_stepped execVisit_acts h
  | frameSent => exact taking_moves (frameSent_moves .refl) h
  | replyWindowClose =>
    change execReplyWindowClose s = _ at h
    unfold execReplyWindowClose at h
    refine taking_moves (fun {u} => ?_) h
    split
    · exact .refl
    · split
      · exact concludeVisit_moves _ _ .refl
      · exact .refl
  | replyComplete => exact taking_moves (overLine_moves _ (fun cs => takeReply_moves cs) _ .refl) h
  | replyGap => exact taking_moves (overLine_moves _ (fun cs => takeGap_moves cs) _ .refl) h
  | breakIndication => exact taking_moves (overLine_moves _ (fun cs => takeBreak_moves cs) _ .refl) h
  | receiverResume => exact taking_moves execReceiverResume_moves h
  | busJammed =>
    exact taking_stepped (fun u => .ite fun _ => (checkJam_moves (setBus_moves _ .refl)).acts) h
  | jamEnd => exact taking_stepped (fun u => .ite fun _ => (setBus_moves _ (setBus_moves _ .refl)).acts) h
  | startLimitExpiry p => exact taking_stepped (fun u => .ite fun _ => (cancelSession_moves _ _ .refl).acts) h
  | extensionLimitExpiry p => exact taking_stepped (fun u => .ite fun _ => (extensionFail_moves _ _ .refl).acts) h
  | pauseLimitExpiry p => exact taking_stepped (fun u => .ite fun _ => (abandon_moves _ .refl).acts) h
  | doneLimitExpiry p => exact taking_stepped (fun u => .ite fun _ => (timeOut_moves _ .refl).acts) h
  | timeBaseTick => exact taking_stepped tick_acts h
  | meterMinute p => exact taking_moves (countMinute_moves p .refl) h
  | sliceExpiry p => exact taking_stepped (fun u => .ite fun _ => (expireSlice_moves _ .refl).acts) h
  | sagAssert => exact execSagAssert_stepped h
  | sagRelease => exact execSagRelease_stepped h
  | settleTimeEnd =>
    change execSettleTimeEnd s = _ at h
    unfold execSettleTimeEnd at h
    refine taking_stepped (fun u => .ite fun _ => ?_) h
    exact (Act.sag .normal u fun h => absurd rfl h).acts.trans (evaluate_moves .refl).acts
  | powerUp => exact execPowerUp_stepped h
  | resetNAssert => exact execResetNAssert_stepped h
  | resetPin => exact execResetPin_stepped h
  | restartRequest => exact execRestartRequest_stepped h
  | vddFall => exact execVddFall_stepped h
  | vbakFall => exact execVbakFall_stepped h
  | huntingResumed => exact taking_stepped (fun u => .ite fun _ => setReceiver_acts _ _) h
  | frameLengthOutOfRange => exact taking_stepped (fun u => .ite_not fun _ => receiveBytes_acts _ _) h

/-- What a step can do, but for the queue of commands. -/
theorem step_stepped (h : step s = .next t) : t = s ∨ ∃ rest, Stepped { s with pending := rest } t := by
  unfold step at h
  split at h
  · exact .inl (Host.Outcome.next.inj h).symm
  · next c rest _ => exact .inr ⟨rest, exec_stepped c h⟩

end Sys2Proof.Machine
end

section
/-! The start of a part whose retention is valid (R187, R189 to R191): while it settles the sessions its queues are
empty, its grants are NONE and its terminals have no request, so that the end of a session is its journal entry, the
test of a pending budget, and the changed flag. -/

namespace Sys2Proof.Machine

variable {s t : State}

/-! ## The state in which sessions are settled -/

/-- The volatile state of a part at its start, but for the changed flags, the sag state and the link. -/
structure Idle (s : State) : Prop where
  queue : s.heat.queue = []
  order : s.heat.order = []
  vol : ∀ p, ∃ changed, s.vol p = { PosState.new with changed := changed }
  terminal : ∀ t, s.terminal t = TermState.new

theorem Idle.grant (h : Idle s) (p : PosIx) : (s.vol p).grant = .none := by
  obtain ⟨_, hv⟩ := h.vol p
  rw [hv]; rfl

theorem Idle.orders (h : Idle s) (p : PosIx) : (s.vol p).orders = [] := by
  obtain ⟨_, hv⟩ := h.vol p
  rw [hv]; rfl

/-- What the retained store and the flags take leaves the rest of an idle part. -/
theorem Idle.of_same (h : Idle s) (hheat : t.heat.queue = s.heat.queue ∧ t.heat.order = s.heat.order)
    (hpos : t.pos = s.pos) (hterm : t.term = s.term) : Idle t where
  queue := hheat.1.trans h.queue
  order := hheat.2.trans h.order
  vol p := by rw [State.vol, hpos]; exact h.vol p
  terminal x := by rw [State.terminal, hterm]; exact h.terminal x

theorem Idle.setChanged (h : Idle s) (p : PosIx) (b : Bool) : Idle (s.setVol p fun v => { v with changed := b }) where
  queue := h.queue
  order := h.order
  vol q := by
    rw [State.vol_setVol]
    split
    · obtain ⟨_, hv⟩ := h.vol p
      exact ⟨b, by rw [hv]⟩
    · exact h.vol q
  terminal := h.terminal

theorem idle_clearVolatile (kind : StartKind) (s : State) : Idle (clearVolatile kind s) where
  queue := rfl
  order := rfl
  vol p := ⟨false, by simp [clearVolatile, State.vol, PosState.new]⟩
  terminal x := by simp [clearVolatile, State.terminal]

/-! ## The end of a session at a start -/

/-- The entry that ends a session at a start (R190). -/
def endEntry (reason : EndReason) (p : PosIx) (ses : Session) (s : State) : JournalEntry :=
  if ses.state = .starting then
    holdEntry ses.cardId (fun c => { c with held := c.held - ses.hold }) none (.removal p) s
  else
    holdEntry ses.cardId (fun c => c.captured ses.hold (ses.charge reason .unused))
      (some (ses.settlement p (.plain reason) s.ret.nextSettlement)) (.removal p) s

theorem activatePending_eq (s : State) : ∃ budget pending trail,
    activatePending s
      = { s with ret := { s.ret with budget := budget, pendingBudget := pending }, trail := trail } := by
  unfold activatePending
  split
  · exact ⟨s.ret.budget, s.ret.pendingBudget, s.trail, rfl⟩
  · split
    · exact ⟨_, _, _, rfl⟩
    · exact ⟨s.ret.budget, s.ret.pendingBudget, s.trail, rfl⟩

theorem evaluate_of_empty (h : s.heat.queue = []) : evaluate s = s := by
  rw [evaluate, h]; rfl

theorem letGo_of_empty {isOwn : OrderBody → Bool} {p : PosIx} (h : (s.vol p).orders = []) : letGo isOwn p s = s := by
  have hv : s.setVol p (fun v => { v with orders := [] }) = s := by
    have : s.setVol p (fun v => { v with orders := [] }) = s.setVol p (fun _ => s.vol p) :=
      congrArg (fun v => ({ s with pos := s.pos.set p.val v } : State)) (by
        change { s.vol p with orders := [] } = s.vol p
        rw [← h])
    exact this.trans (by simp [State.setVol, State.vol])
  unfold letGo
  simp only [h, List.filter_nil, List.map_nil, List.length_nil, Nat.lt_irrefl, if_false]
  exact hv

theorem sendDecline_of_no_request {x : TermIx} (tag : Byte) (reason : DeclineReason) (id : CardId)
    (h : (s.terminal x).request = none) : sendDecline x tag reason id s = s := by
  unfold sendDecline sendAnswer
  rw [if_neg (by simp [State.admitsAnswer, h])]

theorem Idle.withdraw (h : Idle s) (p : PosIx) : withdraw p s = s := by
  unfold Machine.withdraw
  rw [h.grant]

theorem Idle.committedFell (h : Idle s) : committedFell s = activatePending s := by
  obtain ⟨_, _, _, he⟩ := activatePending_eq s
  exact evaluate_of_empty (by rw [he]; exact h.queue)

theorem Idle.journalled (h : Idle s) (e : JournalEntry) : Idle (journalled e s) :=
  h.of_same (by rw [journalled_eq]; exact ⟨rfl, rfl⟩) (by rw [journalled_eq]) (by rw [journalled_eq])

theorem Idle.activatePending (h : Idle s) : Idle (activatePending s) := by
  obtain ⟨_, _, _, he⟩ := activatePending_eq s
  rw [he]
  exact h.of_same ⟨rfl, rfl⟩ rfl rfl

/-- A session of an idle part ends through its entry. -/
theorem Idle.settleAtStart (h : Idle s) {reason : EndReason} (hr : reason = .powerLoss ∨ reason = .restarted)
    {p : PosIx} {ses : Session} (hs : s.session p = some ses) :
    settleAtStart reason s p
      = (Machine.activatePending (Machine.journalled (endEntry reason p ses s) s)).markChanged p := by
  have quiet := h.journalled (endEntry reason p ses s)
  have fell := quiet.committedFell
  have request : ∀ x, ((Machine.activatePending (Machine.journalled (endEntry reason p ses s) s)).terminal x).request
      = none := fun x => by rw [quiet.activatePending.terminal]; rfl
  have hlet : ∀ isOwn, letGo isOwn p s = s := fun _ => letGo_of_empty (h.orders p)
  by_cases hst : ses.state = .starting
  · have hcancel : Machine.settleAtStart reason s p = cancelSession p .machineNoResponse s := by
      unfold Machine.settleAtStart; rw [hs]; dsimp only; rw [hst]
    have he : lowerHold ses.cardId ses.hold (.removal p) s = Machine.journalled (endEntry reason p ses s) s := by
      rw [endEntry, if_pos hst]; rfl
    rw [hcancel, cancelSession, hs]
    dsimp only
    rw [hlet, he, fell, sendDecline_of_no_request _ _ _ (request _)]
  · have hclose : Machine.settleAtStart reason s p = closeSession p (.plain reason) s := by
      unfold Machine.settleAtStart; rw [hs]; dsimp only
      split
      · next e => exact absurd e hst
      all_goals rfl
    have he : capture p ses (ses.charge reason .unused) (ses.settlement p (.plain reason) s.ret.nextSettlement) s
        = Machine.journalled (endEntry reason p ses s) s := by
      rw [endEntry, if_neg hst]; rfl
    have hwd : (Ending.plain reason).windsDown = false := by rcases hr with rfl | rfl <;> rfl
    rw [hclose, closeSession, hs]
    dsimp only
    rw [hlet, show (Ending.plain reason).reason = reason from rfl, show (Ending.plain reason).policy = .unused from rfl,
      he, fell, quiet.activatePending.withdraw, hwd, if_neg Bool.false_ne_true]
    split
    · rfl
    · rw [sendDecline_of_no_request _ _ _ (request _)]

theorem settleAtStart_of_none {reason : EndReason} {p : PosIx} (hs : s.session p = none) :
    settleAtStart reason s p = s := by
  unfold settleAtStart; rw [hs]

/-- The session of a position is gone after its entry, and every other stands. -/
theorem session_endEntry (reason : EndReason) (p q : PosIx) (ses : Session) (s : State) :
    (journalled (endEntry reason p ses s) s).session q = if p = q then none else s.session q := by
  have hpart : (endEntry reason p ses s).session = .removal p := by
    unfold endEntry; split <;> rfl
  rw [session_journalled, hpart]
  change (s.ret.sessions.set p.val none)[q.val] = _
  split
  · next e => subst e; simp
  · next e => exact session_set none (Ne.symm e)

theorem session_activatePending (q : PosIx) (s : State) : (activatePending s).session q = s.session q := by
  obtain ⟨_, _, _, he⟩ := activatePending_eq s
  rw [he]; rfl

theorem session_settleAtStart (h : Idle s) {reason : EndReason} (hr : reason = .powerLoss ∨ reason = .restarted)
    (p q : PosIx) : (settleAtStart reason s p).session q = if p = q then none else s.session q := by
  cases hs : s.session p with
  | none =>
    rw [settleAtStart_of_none hs]
    split
    · next e => exact e ▸ hs
    · rfl
  | some ses =>
    rw [h.settleAtStart hr hs]
    exact (session_activatePending q _).trans (session_endEntry reason p q ses s)

theorem idle_settleAtStart (h : Idle s) {reason : EndReason} (hr : reason = .powerLoss ∨ reason = .restarted)
    (p : PosIx) : Idle (settleAtStart reason s p) := by
  cases hs : s.session p with
  | none => rwa [settleAtStart_of_none hs]
  | some ses =>
    rw [h.settleAtStart hr hs]
    exact (h.journalled _).activatePending.setChanged p true

/-- What holds of an idle part, and is kept where a session is settled, holds after all are. -/
theorem settleSessions_induction {reason : EndReason} (hr : reason = .powerLoss ∨ reason = .restarted)
    {P : List PosIx → State → Prop}
    (step : ∀ p rest s, Idle s → P (p :: rest) s → P rest (settleAtStart reason s p))
    (h : Idle s) (hP : P allPositions s) : Idle (settleSessions reason s) ∧ P [] (settleSessions reason s) := by
  have general : ∀ ps s, Idle s → P ps s →
      Idle (ps.foldl (settleAtStart reason) s) ∧ P [] (ps.foldl (settleAtStart reason) s) := by
    intro ps
    induction ps with
    | nil => exact fun s h hP => ⟨h, hP⟩
    | cons p rest ih => exact fun s h hP => ih _ (idle_settleAtStart h hr p) (step p rest s h hP)
  exact general _ s h hP

theorem endReason_cases (kind : StartKind) : kind.endReason = .powerLoss ∨ kind.endReason = .restarted := by
  cases kind
  · exact .inr rfl
  · exact .inl rfl
  · exact .inr rfl
  · exact .inr rfl

/-- No session is left (R190). -/
theorem session_settleSessions {reason : EndReason} (hr : reason = .powerLoss ∨ reason = .restarted) (h : Idle s)
    (q : PosIx) : (settleSessions reason s).session q = none := by
  have all := settleSessions_induction (s := s) hr (P := fun rest s => ∀ q, q ∉ rest → s.session q = none)
    (fun p rest s h hP q hq => by
      rw [session_settleAtStart h hr]
      split
      · rfl
      · next e => exact hP q (by simp [hq, Ne.symm e])) h (fun q hq => absurd (mem_allPositions q) hq)
  exact all.2 q (by simp)

theorem takePendingBudget_eq (s : State) : ∃ trail, takePendingBudget s = { s with
    ret := { s.ret with budget := s.ret.pendingBudget.getD s.ret.budget, pendingBudget := none }, trail := trail } := by
  unfold takePendingBudget
  split
  · next h =>
    refine ⟨s.trail, ?_⟩
    rw [h]
    change s = { s with ret := { s.ret with pendingBudget := none } }
    rw [← h]
  · next n h => exact ⟨s.ret :: s.trail, by rw [h]; rfl⟩

/-- The store when the sessions are to be settled. -/
def State.starting (kind : StartKind) (s : State) : State := clearVolatile kind (rollForward s)

/-- The store when every session is settled and no hold is left. -/
def State.settledAll (kind : StartKind) (s : State) : State :=
  takePendingBudget (releaseHolds (settleSessions kind.endReason (s.starting kind)))

theorem warmActions_eq (kind : StartKind) (s : State) :
    warmActions kind s
      = (startOrders (sampleSag (s.settledAll kind))).setLink
          fun _ => LinkState.start (startOrders (sampleSag (s.settledAll kind))).pins.rate kind := rfl

theorem idle_settledAll (kind : StartKind) (s : State) :
    Idle (s.settledAll kind) ∧ ∀ q, (s.settledAll kind).session q = none := by
  have hr := endReason_cases kind
  have idle := idle_clearVolatile kind (rollForward s)
  have settled := (settleSessions_induction hr (P := fun _ _ => True) (fun _ _ _ _ _ => trivial) idle trivial).1
  have gone := session_settleSessions hr idle
  unfold State.settledAll State.starting
  generalize settleSessions kind.endReason (clearVolatile kind (rollForward s)) = u at settled gone ⊢
  obtain ⟨_, he⟩ := takePendingBudget_eq (releaseHolds u)
  rw [he]
  exact ⟨settled.of_same ⟨rfl, rfl⟩ rfl rfl, gone⟩

/-- The start-up HEAT_OFF of one position (R191). -/
def startHeatOff (p : PosIx) (s : State) : State := if s.configured p then askHeatOff p s else s

theorem startOrders_eq (s : State) : startOrders s = allPositions.foldl (fun s p =>
    (startHeatOff p s).setVol p fun v => { v with changed := (startHeatOff p s).configured p }) s := rfl

theorem startHeatOff_moves {s₀ : State} (p : PosIx) (h : Moves s₀ s) : Moves s₀ (startHeatOff p s) := by
  unfold startHeatOff
  split
  · exact askHeatOff_moves p h
  · exact h

theorem startOrders_moves {s₀ : State} (h : Moves s₀ s) : Moves s₀ (startOrders s) := by
  rw [startOrders_eq]
  exact Moves.foldl _ (fun p _ _ h => setVol_moves p _ ⟨rfl, rfl⟩ (startHeatOff_moves p h)) _ h

end Sys2Proof.Machine
end

section
/-! The law of the heat budget unit under every step (R120, R125 to R127, R134): under the acts of an event, a sag, and
a start. -/

namespace Sys2Proof.Machine

variable {s t : State}

/-! ## Acts -/

/-- A position that is not configured, or holds no session and no grant, has neither. -/
theorem HeatCore.free {p : PosIx} (hs : HeatCore s) (h : s.configured p = false ∨ s.positionHeld p = false) :
    (s.session p).isSome = false ∧ (s.vol p).grant = .none := by
  rcases h with h | h
  · have none : ¬((s.session p).isSome = true ∨ (s.vol p).grant ≠ .none) := fun hc => by
      have := hs.configured p hc
      rw [h] at this
      exact nomatch this
    exact ⟨Bool.eq_false_iff.mpr fun hc => none (.inl hc), by_contra fun hc => none (.inr hc)⟩
  · simpa [State.positionHeld] using h

theorem grant_reconfigure {p : PosIx} (f : PosRecord → PosRecord) {g : PosState → PosState}
    (hg : (g (s.vol p)).grant = (s.vol p).grant ∨ (g (s.vol p)).grant = .none) (q : PosIx) :
    (((s.setRecord p f).setVol p g).vol q).grant = (s.vol q).grant
      ∨ (((s.setRecord p f).setVol p g).vol q).grant = .none := by
  rw [State.vol_setVol]
  split
  · next e => subst e; exact hg
  · exact .inl rfl

/-- The configuration of a position that holds nothing may change. -/
theorem HeatCore.reconfigure (hs : HeatCore s) (p : PosIx) (f : PosRecord → PosRecord) (g : PosState → PosState)
    (hfree : s.configured p = false ∨ s.positionHeld p = false)
    (hg : (g (s.vol p)).grant = (s.vol p).grant ∨ (g (s.vol p)).grant = .none) :
    HeatCore ((s.setRecord p f).setVol p g) := by
  obtain ⟨hses, hgrant⟩ := hs.free hfree
  have grant : ∀ q, (((s.setRecord p f).setVol p g).vol q).grant = (s.vol q).grant := fun q => by
    rw [State.vol_setVol]
    split
    · next e => subst e; rw [hgrant]; exact hg.elim (·.trans hgrant) id
    · rfl
  have record : ∀ q, q ≠ p → ((s.setRecord p f).setVol p g).record q = s.record q := fun q hq =>
    (State.record_setRecord ..).trans (if_neg (Ne.symm hq))
  have load : ∀ q, ((s.setRecord p f).setVol p g).loadOf q = s.loadOf q := fun q => by
    by_cases hq : q = p
    · subst hq
      have h1 : (((s.setRecord q f).setVol q g).session q).isSome = false := hses
      simp only [State.loadOf, grant, hgrant, h1, hses, Grant.counted, Bool.false_eq_true, if_false]
    · have hsame : ((s.setRecord p f).setVol p g).session q = s.session q := rfl
      simp only [State.loadOf, grant, hsame, State.motorLoad, State.heaterDemand, record q hq]
  refine ⟨hs.queue_nodup, fun q => by rw [grant]; exact hs.mem_queue q, hs.order_nodup,
    fun q => by rw [grant]; exact hs.mem_order q, fun q hq => ?_, ?_⟩
  · rw [grant] at hq
    by_cases hqp : q = p
    · subst hqp
      rcases hq with h | h
      · exact absurd h (by rw [show ((s.setRecord q f).setVol q g).session q = s.session q from rfl, hses]; simp)
      · exact absurd hgrant h
    · rw [State.configured, record q hqp]
      exact hs.configured q hq
  · rw [State.committed, funext load]
    exact hs.within

/-- Every act keeps the law, but for its clause about SAG. -/
theorem HeatCore.act (hs : HeatCore s) (a : Act s t) : HeatCore t := by
  cases a with
  | room m => exact hs.move m
  | link => exact hs.frame rfl (fun _ => rfl) (fun _ => rfl) (fun _ => rfl) rfl
  | own => exact hs.frame rfl (fun _ => rfl) (fun _ => rfl) (fun _ => rfl) rfl
  | sag => exact hs.of_same ⟨rfl, rfl, fun _ => rfl, fun _ => rfl, fun _ => rfl⟩ hs.within
  | table f _ hp hses hb =>
    exact hs.frame rfl (fun _ => rfl) (fun p => by rw [State.session, State.write_ret, hses]; rfl)
      (fun p => by rw [State.record, State.write_ret, hp]; rfl) hb
  | cards part =>
    exact hs.frame (by rw [journalled_eq]) (fun p => by rw [journalled_eq]; rfl)
      (fun p => by rw [session_journalled]; rfl) (fun p => by rw [State.record, journalled_ret, applyEntry_eq]; rfl)
      (by rw [journalled_ret, applyEntry_eq])
  | reconfigure p f g _ hfree hg => exact hs.reconfigure p f g hfree hg

theorem HeatCore.acts (hs : HeatCore s) (h : Acts s t) : HeatCore t := by
  induction h with
  | refl => exact hs
  | tail _ a ih => exact ih.act a

/-- No grant is GRANTED while SAG is not NORMAL. -/
def SagLaw (s : State) : Prop := s.heat.sag ≠ .normal → ∀ p, (s.vol p).grant ≠ .granted

theorem NoGrantInSag.sagLaw (h : NoGrantInSag s t) (hs : SagLaw s) : SagLaw t :=
  fun hn p hp => hs (h.sag ▸ hn) p (h.kept (h.sag ▸ hn) p hp)

theorem SagLaw.act (hs : SagLaw s) (a : Act s t) : SagLaw t := by
  cases a with
  | room m => exact m.noGrantInSag.sagLaw hs
  | link => exact hs
  | own => exact hs
  | sag x _ h => exact fun hn => hs (h hn)
  | table => exact hs
  | cards part => exact (NoGrantInSag.journalled _ _).sagLaw hs
  | reconfigure p f g _ _ hg =>
    intro hn q hq
    rcases grant_reconfigure f hg q with h | h
    · exact hs hn q (h ▸ hq)
    · rw [h] at hq; exact nomatch hq

theorem SagLaw.acts (hs : SagLaw s) (h : Acts s t) : SagLaw t := by
  induction h with
  | refl => exact hs
  | tail _ a ih => exact ih.act a

/-! ## A sag -/

theorem grant_endGrant (p : PosIx) (s : State) : ((endGrant p s).vol p).grant = .none := by
  exact (setVol_grant p p (fun v => { v with grant := .none, slice := none, changed := true }) .none
    (fun _ => rfl) s).trans (if_pos rfl)

theorem grant_startRelease (p : PosIx) (s : State) : ((startRelease p s).vol p).grant = .releasing := by
  exact (setVol_grant p p (fun v => { v with grant := .releasing, slice := none, changed := true }) .releasing
    (fun _ => rfl) s).trans (if_pos rfl)

/-- A withdrawal while SAG is not NORMAL leaves the position not GRANTED. -/
theorem grant_withdraw_ne (p : PosIx) (hn : s.heat.sag ≠ .normal) : ((withdraw p s).vol p).grant ≠ .granted := by
  have after : ∀ u : State, u.heat.sag = s.heat.sag → (u.vol p).grant ≠ .granted → Moves u (withdraw p s) →
      ((withdraw p s).vol p).grant ≠ .granted := fun u hu hg m hp => hg (m.noGrantInSag.kept (hu ▸ hn) p hp)
  cases hg : (s.vol p).grant with
  | none => exact after s rfl (by rw [hg]; decide) (withdraw_moves p .refl)
  | releasing => exact after s rfl (by rw [hg]; decide) (withdraw_moves p .refl)
  | queued =>
    refine after (endGrant p s) rfl ?_ ?_
    · rw [grant_endGrant]; decide
    · unfold withdraw; rw [hg]; exact evaluate_moves .refl
  | granted =>
    refine after (startRelease p s) rfl ?_ ?_
    · rw [grant_startRelease]; decide
    · unfold withdraw; rw [hg]
      exact askUrgentFor_moves _ (fun _ {_ _} h => h) _ _ _ .refl

/-- The withdrawals of a sag reach every GRANTED position. -/
theorem foldl_withdraw_not_granted (ps : List PosIx) : ∀ s : State, s.heat.sag ≠ .normal →
    ∀ p, (p ∈ ps ∨ (s.vol p).grant ≠ .granted) → ((ps.foldl (fun s p => withdraw p s) s).vol p).grant ≠ .granted := by
  induction ps with
  | nil => exact fun s _ p h => h.elim (fun h => nomatch h) id
  | cons q rest ih =>
    intro s hn p h
    have keep := (withdraw_moves q (Relation.ReflTransGen.refl (a := s))).noGrantInSag
    refine ih _ (by rw [keep.sag]; exact hn) p ?_
    by_cases hq : p = q
    · subst hq; exact .inr (grant_withdraw_ne p hn)
    · rcases h with h | h
      · exact .inl ((List.mem_cons.mp h).resolve_left hq)
      · exact .inr fun hp => h (keep.kept hn p hp)

theorem mem_insertByRank (rank : PosIx → Nat) (p q : PosIx) (ps : List PosIx) :
    q ∈ insertByRank rank p ps ↔ q = p ∨ q ∈ ps := by
  induction ps with
  | nil => simp [insertByRank]
  | cons x xs ih =>
    unfold insertByRank
    split
    · simp
    · simp only [List.mem_cons, ih]
      exact or_left_comm

theorem mem_sortByRank (rank : PosIx → Nat) (q : PosIx) (ps : List PosIx) : q ∈ sortByRank rank ps ↔ q ∈ ps := by
  induction ps with
  | nil => simp [sortByRank]
  | cons x xs ih => simp only [sortByRank, mem_insertByRank, ih, List.mem_cons]

theorem heatLaw_assertSag (hs : HeatCore s) : HeatLaw (assertSag s) := by
  have sagging : HeatCore s.sagging := hs.of_same ⟨rfl, rfl, fun _ => rfl, fun _ => rfl, fun _ => rfl⟩ hs.within
  refine heatLaw_iff.mpr ⟨sagging.moves (assertSag_moves s), fun _ p => ?_⟩
  refine foldl_withdraw_not_granted _ s.sagging (by simp [State.sagging, State.setHeat]) p ?_
  rw [mem_sortByRank, List.mem_filter]
  by_cases h : (s.vol p).grant = .granted
  · exact .inl ⟨mem_allPositions p, by rw [h]; rfl⟩
  · exact .inr h

/-! ## A start -/

/-- A part without a session or a grant keeps the law. -/
theorem Idle.heatLaw (h : Idle s) (hs : ∀ p, s.session p = none) : HeatLaw s := by
  have grant := h.grant
  have load : ∀ p, s.loadOf p = 0 := fun p => by simp [State.loadOf, hs, grant, Grant.counted]
  have committed : s.committed ≤ s.ret.budget := by
    rw [State.committed, List.sum_eq_zero]
    · exact Nat.zero_le _
    · intro x hx
      obtain ⟨p, -, rfl⟩ := List.mem_map.mp hx
      exact load p
  refine heatLaw_iff.mpr ⟨⟨by rw [h.queue]; exact List.nodup_nil, fun p => by simp [h.queue, grant],
    by rw [h.order]; exact List.nodup_nil, fun p => by simp [h.order, grant], fun p hp => ?_,
    committed⟩, fun _ p => ?_⟩
  · rcases hp with hp | hp
    · rw [hs] at hp; exact nomatch hp
    · exact absurd (grant p) hp
  · rw [grant]; decide

theorem heatLaw_sampleSag (h : Idle s) (hs : ∀ p, s.session p = none) : HeatLaw (sampleSag s) := by
  have sampled : ∀ x, HeatLaw (s.setHeat fun h => { h with sag := x }) := fun x =>
    Idle.heatLaw (h.of_same ⟨rfl, rfl⟩ rfl rfl) hs
  unfold sampleSag
  split
  · exact heatLaw_moves (sampled _) (raiseNotice_moves _ _ _ .refl)
  · exact sampled _

theorem heatLaw_runStart (kind : StartKind) (u : State) : HeatLaw (runStart kind u) := by
  unfold runStart
  dsimp only
  split
  · rw [warmActions_eq]
    obtain ⟨idle, gone⟩ := idle_settledAll kind { u with power := { u.power with waiting := false } }
    have law := heatLaw_moves (heatLaw_sampleSag idle gone) (startOrders_moves .refl)
    generalize startOrders _ = v at law ⊢
    exact law
  · refine heatLaw_sampleSag (idle_clearVolatile _ _) fun p => ?_
    simp [clearVolatile, State.session, Retained.initial]

/-! ## Steps -/

theorem heatLaw_stepped (hs : s.live = true → HeatLaw s) (h : Stepped s t) (ht : t.live = true) : HeatLaw t := by
  cases h with
  | same => exact hs ht
  | acts hl h =>
    obtain ⟨core, sag⟩ := heatLaw_iff.mp (hs hl)
    have fresh : HeatCore s.fresh := core.frame rfl (fun _ => rfl) (fun _ => rfl) (fun _ => rfl) rfl
    exact heatLaw_iff.mpr ⟨fresh.acts h, SagLaw.acts (s := s.fresh) sag h⟩
  | sag hl =>
    exact heatLaw_assertSag
      ((heatLaw_iff.mp (hs hl)).1.frame rfl (fun _ => rfl) (fun _ => rfl) (fun _ => rfl) rfl)
  | start kind u => exact heatLaw_runStart kind u
  | off hl => rw [ht] at hl; exact nomatch hl

/-- Settles O58: the law is kept by every act, set up again by a sag, and holds of every start. -/
theorem stepKeepsHeatLaw : Obligations.StepKeepsHeatLaw := by
  unfold Obligations.StepKeepsHeatLaw
  intro s t hs h ht
  rcases step_stepped h with rfl | ⟨rest, h⟩
  · exact hs ht
  · exact heatLaw_stepped (s := { s with pending := rest }) hs h ht

end Sys2Proof.Machine
end

section
/-! Every queue and table within its capacity and order, wherever a loss of power may cut an event (R16, R36, R45, R59,
R82, R85, R155, R163, R170, R173, R183): under the acts of an event, and at a start. -/

namespace Sys2Proof.Machine

variable {s t : State}

/-! ## The law while no journal entry stands -/

/-- The order queues and the outboxes keep their laws. -/
structure QueuesLaw (s : State) : Prop where
  orders : ∀ p, QueueLaw (s.vol p).orders
  outbox : ∀ t, OutboxLaw (s.terminal t).outbox

/-- The store, with an empty journal, and every store that a cut may leave keep their law. -/
structure StoresLaw (s : State) : Prop where
  journal : s.ret.journal = none
  store : StoreLaw s.ret
  trail : ∀ r ∈ s.trail, StoreLaw r.settled

/-- The law of a state at which an event may end. -/
structure CapacityCore (s : State) : Prop where
  queues : QueuesLaw s
  stores : StoresLaw s
  link : LinkLaw s.link

theorem settled_of_no_journal {r : Retained} (h : r.journal = none) : r.settled = r := by
  rw [Retained.settled, h]

theorem CapacityCore.law (h : CapacityCore s) : CapacityLaw s := by
  refine ⟨h.queues.orders, h.queues.outbox, h.link.1, h.link.2, fun _ => h.stores.journal, fun r hr => ?_⟩
  rcases List.mem_cons.mp hr with rfl | hr
  · rw [settled_of_no_journal h.stores.journal]; exact h.stores.store
  · exact h.stores.trail r hr

theorem capacityCore_fresh (h : CapacityLaw s) (hl : s.live = true) : CapacityCore s.fresh := by
  obtain ⟨horders, houtbox, hbuffer, htransmit, hjournal, hstores⟩ := h
  refine ⟨⟨horders, houtbox⟩, ⟨hjournal hl, ?_, fun r hr => nomatch hr⟩, hbuffer, htransmit⟩
  have := hstores s.ret List.mem_cons_self
  rwa [settled_of_no_journal (hjournal hl)] at this

/-! ## What keeps it -/

theorem QueuesLaw.of_same (h : QueuesLaw s) (hpos : t.pos = s.pos) (hterm : t.term = s.term) : QueuesLaw t where
  orders p := by rw [State.vol, hpos]; exact h.orders p
  outbox x := by rw [State.terminal, hterm]; exact h.outbox x

theorem QueuesLaw.setVol (h : QueuesLaw s) (p : PosIx) (f : PosState → PosState)
    (hf : QueueLaw (s.vol p).orders → QueueLaw (f (s.vol p)).orders) : QueuesLaw (s.setVol p f) where
  orders q := by
    rw [State.vol_setVol]
    split
    · next e => subst e; exact hf (h.orders p)
    · exact h.orders q
  outbox := h.outbox

theorem setVol_orders (p : PosIx) {f : PosState → PosState} (hf : ∀ v, (f v).orders = v.orders) (s : State)
    (q : PosIx) : ((s.setVol p f).vol q).orders = (s.vol q).orders := by
  rw [State.vol_setVol]
  split
  · next e => subst e; exact hf _
  · rfl

theorem QueuesLaw.of_orders (h : QueuesLaw s) (horders : ∀ p, (t.vol p).orders = (s.vol p).orders)
    (hterm : t.term = s.term) : QueuesLaw t where
  orders p := by rw [horders]; exact h.orders p
  outbox x := by rw [State.terminal, hterm]; exact h.outbox x

theorem QueuesLaw.setTerm (h : QueuesLaw s) (x : TermIx) (f : TermState → TermState)
    (hf : OutboxLaw (s.terminal x).outbox → OutboxLaw (f (s.terminal x)).outbox) : QueuesLaw (s.setTerm x f) where
  orders := h.orders
  outbox y := by
    rw [State.terminal_setTerm]
    split
    · next e => subst e; exact hf (h.outbox x)
    · exact h.outbox y

theorem StoresLaw.of_same (h : StoresLaw s) (hret : t.ret = s.ret) (htrail : t.trail = s.trail) : StoresLaw t where
  journal := hret ▸ h.journal
  store := hret ▸ h.store
  trail := htrail ▸ h.trail

/-- One retained write that leaves the journal EMPTY. -/
theorem StoresLaw.write (h : StoresLaw s) (f : Retained → Retained) (hj : (f s.ret).journal = s.ret.journal)
    (hf : StoreLaw s.ret → StoreLaw (f s.ret)) : StoresLaw (s.write f) where
  journal := hj.trans h.journal
  store := hf h.store
  trail r hr := by
    rcases List.mem_cons.mp hr with rfl | hr
    · rw [settled_of_no_journal h.journal]; exact h.store
    · exact h.trail r hr

/-- A journalled change, whose law holds once all its parts are applied. -/
theorem StoresLaw.journalled (h : StoresLaw s) (e : JournalEntry)
    (he : StoreLaw s.ret → StoreLaw { applyEntry e s.ret with journal := none }) : StoresLaw (journalled e s) where
  journal := by rw [journalled_ret]
  store := by rw [journalled_ret]; exact he h.store
  trail r hr := by
    rw [journalled_trail] at hr
    rcases List.mem_append.mp hr with hr | hr
    · rcases settled_of_mem_journalTrail hr with rfl | ⟨-, hr⟩
      · rw [settled_of_no_journal h.journal]; exact h.store
      · rw [hr]; exact he h.store
    · exact h.trail r hr

/-! ## Sessions and settlement records -/

/-- The number of open sessions when the session of one position changes. -/
theorem openSessions_set (r : Retained) (p : PosIx) (o : Option Session) :
    ({ r with sessions := r.sessions.set p.val o } : Retained).openSessions + (if r.sessions[p.val].isSome then 1 else 0)
      = r.openSessions + if o.isSome then 1 else 0 := by
  have count : ∀ r : Retained, r.openSessions
      = (allPositions.map fun p => if r.sessions[p.val].isSome then 1 else 0).sum := fun r => by
    unfold Retained.openSessions
    induction allPositions with
    | nil => rfl
    | cons p ps ih =>
      rw [List.filter_cons, List.map_cons, List.sum_cons, ← ih]
      split
      · rw [List.length_cons, Nat.add_comm]
      · rw [Nat.zero_add]
  rw [count, count]
  have := sum_update (f := fun q : PosIx => if (r.sessions.set p.val o)[q.val].isSome then 1 else 0)
    (g := fun q : PosIx => if r.sessions[q.val].isSome then 1 else 0) p fun q hq => by rw [session_set o hq]
  simpa using this

/-- What a hold operation or a close makes of the store (R66). -/
theorem applyEntry_hold (id : CardId) (f : Card → Card) (r : Option Settlement) (part : SessionPart) (s : State) :
    ({ applyEntry (holdEntry id f r part s) s.ret with journal := none } : Retained)
      = { s.ret with
          cards := (cardPart id f s).cards s.ret.cards
          settlements := settlementsAfter r s.ret.settlements
          nextSettlement := numberAfter r s.ret.settlements s.ret.nextSettlement
          sessions := part.sessions s.ret.sessions
          journal := none } := by
  rw [applyEntry_eq]; rfl

theorem cardsLaw_cardPart {id : CardId} {f : Card → Card} (hf : ∀ c, (f c).id = c.id)
    (h : CardsLaw s.ret.cards) : CardsLaw ((cardPart id f s).cards s.ret.cards) := by
  unfold cardPart
  split
  · exact h
  · next c hc => exact h.put_known (mem_of_card hc).1 (hf c).symm

theorem length_settlementsAfter (r : Option Settlement) (xs : List Settlement) :
    (settlementsAfter r xs).length ≤ xs.length + r.toList.length := by
  unfold settlementsAfter
  split
  · rw [List.length_append]
  · exact Nat.le_add_right _ _

/-- The store's law under a hold operation or a close: the open sessions and the settlement records may not grow past
their common capacity. -/
theorem storeLaw_hold {id : CardId} {f : Card → Card} {r : Option Settlement} {part : SessionPart}
    (hf : ∀ c, (f c).id = c.id) (h : StoreLaw s.ret)
    (hcap : ({ s.ret with sessions := part.sessions s.ret.sessions } : Retained).openSessions
      + (s.ret.settlements.length + r.toList.length) ≤ Config.settlementCapacity) :
    StoreLaw { applyEntry (holdEntry id f r part s) s.ret with journal := none } := by
  rw [applyEntry_hold]
  obtain ⟨hc, hp, hb, hfaults, -⟩ := storeLaw_iff.mp h
  exact storeLaw_iff.mpr ⟨cardsLaw_cardPart hf hc, hp, hb, hfaults,
    (Nat.add_le_add_left (length_settlementsAfter r s.ret.settlements) _).trans hcap⟩

theorem length_appendFault_le (code : Nat) (position : Option PosIx) (severity : Severity) (number : Option Nat)
    (detail : Option MissKind) (h : s.ret.faults.length ≤ Config.faultCapacity) :
    (appendFault code position severity number detail s).ret.faults.length ≤ Config.faultCapacity := by
  have drop : ∀ q : List FaultRecord, (dropForOverflow q).length ≤ q.length - 1 := fun q => by
    unfold dropForOverflow
    split
    · next hany =>
      obtain ⟨x, hx, hs⟩ := List.any_eq_true.mp hany
      exact (List.length_eraseP_of_mem hx hs).le
    · exact List.length_tail.le
  simp only [appendFault, State.write_ret, List.length_append, List.length_singleton]
  split
  · have := drop s.ret.faults
    have : 0 < Config.faultCapacity := by decide
    omega
  · omega

/-! ## Moves and acts -/

/-- What a move of the room keeps. -/
theorem CapacityCore.move (h : CapacityCore s) (m : Move s t) : CapacityCore t := by
  obtain ⟨hq, hs, hl⟩ := h
  have cap := (storeLaw_iff.mp hs.store).2.2.2.2
  have journalled : ∀ e : JournalEntry, StoreLaw { applyEntry e s.ret with journal := none } →
      CapacityCore (Machine.journalled e s) := fun e he =>
    ⟨hq.of_same (by rw [journalled_eq]) (by rw [journalled_eq]), hs.journalled e fun _ => he,
      by rw [journalled_eq]; exact hl⟩
  cases m with
  | vol p f _ _ hf => exact ⟨hq.setVol p f hf, hs.of_same rfl rfl, hl⟩
  | term x f _ hf => exact ⟨hq.setTerm x f hf, hs.of_same rfl rfl, hl⟩
  | bus => exact ⟨hq.of_same rfl rfl, hs.of_same rfl rfl, hl⟩
  | record => exact ⟨hq.of_same rfl rfl, hs.write _ rfl id, hl⟩
  | session p f =>
    refine ⟨hq.of_same rfl rfl, hs.write _ rfl fun law => ?_, hl⟩
    obtain ⟨hc, hp, hb, hf, -⟩ := storeLaw_iff.mp law
    refine storeLaw_iff.mpr ⟨hc, hp, hb, hf, ?_⟩
    have := openSessions_set s.ret p (s.ret.sessions[p.val].map f)
    rw [Option.isSome_map] at this
    exact (Nat.add_right_cancel this) ▸ cap
  | fault code position severity number detail =>
    refine ⟨hq.of_same rfl rfl, hs.write _ rfl fun law => ?_, hl⟩
    obtain ⟨hc, hp, hb, hf, rest⟩ := storeLaw_iff.mp law
    exact storeLaw_iff.mpr ⟨hc, hp, hb, length_appendFault_le code position severity number detail hf, rest⟩
  | endGrant p =>
    have grant := setVol_orders p (f := fun v => { v with grant := .none, slice := none, changed := true })
      (fun _ => rfl) s
    exact ⟨hq.of_orders grant rfl, hs.of_same rfl rfl, hl⟩
  | startRelease p =>
    have grant := setVol_orders p (f := fun v => { v with grant := .releasing, slice := none, changed := true })
      (fun _ => rfl) s
    exact ⟨hq.of_orders grant rfl, hs.of_same rfl rfl, hl⟩
  | joinQueue p =>
    have grant := setVol_orders p (f := fun v => { v with grant := .queued, changed := true }) (fun _ => rfl) s
    exact ⟨hq.of_orders grant rfl, hs.of_same rfl rfl, hl⟩
  | giveGrant p =>
    exact ⟨hq.of_orders (setVol_orders p (by intro; rfl) _) rfl, hs.of_same rfl rfl, hl⟩
  | budget => exact ⟨hq.of_same rfl rfl, hs.write _ rfl id, hl⟩
  | hold p ses ses' id f _ hses hf =>
    refine journalled _ (storeLaw_hold hf hs.store ?_)
    have := openSessions_set s.ret p (some ses')
    rw [show s.ret.sessions[p.val] = some ses from hses] at this
    exact (Nat.add_right_cancel this) ▸ cap
  | cancel p ses id f _ hses hf =>
    refine journalled _ (storeLaw_hold hf hs.store ?_)
    have := openSessions_set s.ret p none
    rw [show s.ret.sessions[p.val] = some ses from hses] at this
    simp only [SessionPart.sessions, Option.toList_none, List.length_nil] at this ⊢
    simp only [Option.isSome_some, if_true, Option.isSome_none, Bool.false_eq_true, if_false] at this
    omega
  | close p ses id f r _ hses hf =>
    refine journalled _ (storeLaw_hold hf hs.store ?_)
    have := openSessions_set s.ret p none
    rw [show s.ret.sessions[p.val] = some ses from hses] at this
    simp only [SessionPart.sessions, Option.toList_some, List.length_singleton] at this ⊢
    simp only [Option.isSome_some, if_true, Option.isSome_none, Bool.false_eq_true, if_false] at this
    omega
  | beginSession p ses id f _ hnone hf hcap =>
    refine journalled _ (storeLaw_hold hf hs.store ?_)
    have := openSessions_set s.ret p (some ses)
    rw [show s.ret.sessions[p.val] = none from hnone] at this
    have hopen : s.openSessions = s.ret.openSessions := rfl
    simp only [SessionPart.sessions, Option.toList_none, List.length_nil] at this ⊢
    simp only [Option.isSome_some, if_true, Option.isSome_none, Bool.false_eq_true, if_false] at this
    omega

theorem CapacityCore.moves (h : CapacityCore s) (m : Moves s t) : CapacityCore t := by
  induction m with
  | refl => exact h
  | tail _ m ih => exact ih.move m

theorem CapacityCore.act (h : CapacityCore s) (a : Act s t) : CapacityCore t := by
  cases a with
  | room m => exact h.move m
  | link f _ hf => exact ⟨h.queues.of_same rfl rfl, h.stores.of_same rfl rfl, hf h.link⟩
  | own => exact ⟨h.queues.of_same rfl rfl, h.stores.of_same rfl rfl, h.link⟩
  | sag => exact ⟨h.queues.of_same rfl rfl, h.stores.of_same rfl rfl, h.link⟩
  | table f _ _ _ _ hj hf => exact ⟨h.queues.of_same rfl rfl, h.stores.write f hj hf, h.link⟩
  | cards part _ hpart =>
    refine ⟨h.queues.of_same (by rw [journalled_eq]) (by rw [journalled_eq]), h.stores.journalled _ fun law => ?_,
      by rw [journalled_eq]; exact h.link⟩
    obtain ⟨hc, rest⟩ := storeLaw_iff.mp law
    rw [applyEntry_eq]
    exact storeLaw_iff.mpr ⟨hpart hc, rest⟩
  | reconfigure p f g _ _ _ hg =>
    exact ⟨(h.queues.of_same (t := s.setRecord p f) rfl rfl).setVol p g hg,
      (h.stores.write (fun r => { r with positions := r.positions.set p.val (f r.positions[p.val]) }) rfl id).of_same
        rfl rfl, h.link⟩

theorem CapacityCore.acts (h : CapacityCore s) (a : Acts s t) : CapacityCore t := by
  induction a with
  | refl => exact h
  | tail _ a ih => exact ih.act a

end Sys2Proof.Machine
end

section
/-! The capacities at a start (R186, R188 to R191), and so under every step. -/

namespace Sys2Proof.Machine

variable {s t : State}

/-! ## The roll-forward -/

/-- The roll-forward of a WRITTEN entry in one (R186). -/
theorem rollForward_of_written {e : JournalEntry} (h : s.ret.journal = some e) :
    rollForward s
      = { s with ret := { applyEntry e s.ret with journal := none }
                 trail := (journalTrail e s.ret).take 4 ++ s.trail } := by
  have begun : ∀ r : Retained, r.journal = some e → r.begun e = r := fun r hr => by
    rw [Retained.begun, ← hr]
  have hcard : (applyCard e.card s.ret).journal = some e := by rw [applyCard_eq]; exact h
  have hsettlement : (applySettlement e.settlement (applyCard e.card s.ret)).journal = some e := by
    rw [applySettlement_eq]; exact hcard
  have hentry : (applyEntry e s.ret).journal = some e := by rw [applyEntry_eq]; exact h
  rw [rollForward, h]
  simp only [journalTrail, List.take_succ_cons, List.take_zero, begun _ hentry, begun _ hsettlement, begun _ hcard,
    begun _ h]
  rfl

theorem storesLaw_rollForward (h : StoreLaw s.ret.settled) (ht : s.trail = []) : StoresLaw (rollForward s) := by
  cases hj : s.ret.journal with
  | none =>
    have same : rollForward s = s := by rw [rollForward, hj]
    rw [same]
    exact ⟨hj, settled_of_no_journal hj ▸ h, by rw [ht]; exact fun r hr => nomatch hr⟩
  | some e =>
    rw [rollForward_of_written hj]
    have whole : s.ret.settled = { applyEntry e s.ret with journal := none } := by rw [Retained.settled, hj]
    refine ⟨rfl, whole ▸ h, fun r hr => ?_⟩
    rw [ht, List.append_nil] at hr
    rcases settled_of_mem_journalTrail (List.mem_of_mem_take hr) with rfl | ⟨-, hr⟩
    · exact h
    · rw [hr, ← whole]; exact h

/-! ## The start -/

theorem linkLaw_start (rate : GatewayRate) (kind : StartKind) : LinkLaw (LinkState.start rate kind) :=
  ⟨Nat.zero_le _, Nat.zero_le _⟩

theorem Idle.queuesLaw (h : Idle s) : QueuesLaw s where
  orders p := by rw [h.orders]; decide
  outbox x := by rw [h.terminal]; exact .nil

theorem settleAtStart_moves {s₀ : State} (reason : EndReason) (p : PosIx) (h : Moves s₀ s) :
    Moves s₀ (settleAtStart reason s p) := by
  unfold settleAtStart
  split
  · exact h
  · split
    · exact cancelSession_moves _ _ h
    all_goals exact closeSession_moves _ _ h

theorem settleSessions_moves (reason : EndReason) (s : State) : Moves s (settleSessions reason s) :=
  Moves.foldl _ (fun p _ _ h => settleAtStart_moves reason p h) _ .refl

theorem CapacityCore.releaseHolds (h : CapacityCore s) : CapacityCore (releaseHolds s) := by
  refine ⟨h.queues.of_same rfl rfl, h.stores.write _ rfl fun law => ?_, h.link⟩
  obtain ⟨hc, rest⟩ := storeLaw_iff.mp law
  exact storeLaw_iff.mpr ⟨hc.map fun _ => rfl, rest⟩

theorem CapacityCore.takePendingBudget (h : CapacityCore s) : CapacityCore (takePendingBudget s) := by
  unfold Machine.takePendingBudget
  split
  · exact h
  · exact ⟨h.queues.of_same rfl rfl, h.stores.write _ rfl id, h.link⟩

theorem CapacityCore.sampleSag (h : CapacityCore s) : CapacityCore (sampleSag s) := by
  have sampled : ∀ x, CapacityCore (s.setHeat fun h => { h with sag := x }) := fun x =>
    ⟨h.queues.of_same rfl rfl, h.stores.of_same rfl rfl, h.link⟩
  unfold Machine.sampleSag
  split
  · exact (sampled _).moves (raiseNotice_moves _ _ _ .refl)
  · exact sampled _

theorem capacityCore_warmActions (kind : StartKind) (h : StoreLaw s.ret.settled) (ht : s.trail = []) :
    CapacityCore (warmActions kind s) := by
  have first : CapacityCore (s.starting kind) :=
    ⟨(idle_clearVolatile kind _).queuesLaw, (storesLaw_rollForward h ht).of_same rfl rfl, linkLaw_start _ kind⟩
  have settled := (first.moves (settleSessions_moves kind.endReason _)).releaseHolds.takePendingBudget
  have started := settled.sampleSag.moves (startOrders_moves .refl)
  rw [warmActions_eq, State.settledAll]
  generalize startOrders _ = u at started ⊢
  exact ⟨started.queues.of_same rfl rfl, started.stores.of_same rfl rfl, linkLaw_start _ kind⟩

theorem capacityCore_coldActions (h : StoreLaw s.ret.settled) (ht : s.trail = []) : CapacityCore (coldActions s) := by
  have initial : ∀ v, StoreLaw { Retained.initial with valid := v } := by decide +kernel
  refine CapacityCore.sampleSag ⟨(idle_clearVolatile _ _).queuesLaw, ⟨rfl, initial true, fun r hr => ?_⟩,
    linkLaw_start _ _⟩
  have hr : r ∈ Retained.initial :: s.ret :: s.trail := hr
  rw [ht, List.mem_cons, List.mem_singleton] at hr
  rcases hr with rfl | rfl
  · exact initial false
  · exact h

theorem capacityCore_runStart (kind : StartKind) (h : StoreLaw s.ret.settled) (ht : s.trail = []) :
    CapacityCore (runStart kind s) := by
  have same : ∃ u : State, u.ret = s.ret ∧ u.trail = s.trail
      ∧ runStart kind s = if u.ret.valid then warmActions kind u else coldActions u :=
    ⟨{ s with power := { s.power with waiting := false } }, rfl, rfl, rfl⟩
  obtain ⟨u, hr, htrail, he⟩ := same
  rw [he]
  split
  · exact capacityCore_warmActions kind (hr ▸ h) (htrail.trans ht)
  · exact capacityCore_coldActions (hr ▸ h) (htrail.trans ht)

theorem capacityLaw_stepped (hs : CapacityLaw s) (h : Stepped s t) : CapacityLaw t := by
  cases h with
  | same => exact hs
  | acts hl h => exact ((capacityCore_fresh hs hl).acts h).law
  | sag hl =>
    have fresh := capacityCore_fresh hs hl
    have sagging : CapacityCore (setSagPin true s.fresh).sagging :=
      ⟨fresh.queues.of_same rfl rfl, fresh.stores.of_same rfl rfl, fresh.link⟩
    exact (sagging.moves (assertSag_moves _)).law
  | start kind u hr ht =>
    have store : StoreLaw u.ret.settled := hr ▸ hs.2.2.2.2.2 s.ret List.mem_cons_self
    exact (capacityCore_runStart kind store ht).law
  | off hl hpos hterm hlink hr =>
    obtain ⟨horders, houtbox, hbuffer, htransmit, -, hstores⟩ := hs
    have settled_valid : ∀ (x : Retained) (v : Bool), StoreLaw x.settled → StoreLaw ({ x with valid := v }).settled :=
      fun x v hx => by
        unfold Retained.settled at hx ⊢
        cases hj : x.journal with
        | none => rw [hj] at hx; exact hx
        | some e =>
          rw [hj] at hx
          simp only [applyEntry_eq] at hx ⊢
          exact hx
    refine ⟨fun p => by rw [State.vol, hpos]; exact horders p, fun x => by rw [State.terminal, hterm]; exact houtbox x,
      hlink ▸ hbuffer, hlink ▸ htransmit, fun hl' => ?_, fun r hmem => ?_⟩
    · rw [hl] at hl'; exact nomatch hl'
    · obtain ⟨x, hx, v, rfl⟩ := hr r hmem
      exact settled_valid x v (hstores x hx)

/-- Settles O59: every act keeps the queues, the link and each store that a cut may leave, and a start does. -/
theorem stepKeepsCapacities : Obligations.StepKeepsCapacities := by
  unfold Obligations.StepKeepsCapacities
  intro s t hs h
  rcases step_stepped h with rfl | ⟨rest, h⟩
  · exact hs
  · exact capacityLaw_stepped (s := { s with pending := rest }) hs h

end Sys2Proof.Machine
end

section
/-! Supply and reset (R183, R184, R187), the cold start (R188), and the state after reset. -/

namespace Sys2Proof.Machine

variable {s t : State}

/-! ## The cold start -/

/-- The store after a cold start, which finds SAG at a level (R188, R191). -/
def coldStore (sag : Bool) : Retained :=
  let sagRecord : FaultRecord :=
    { number := 2, code := 23, position := none, severity := .notice, minute := none, settlement := none
      detail := none }
  { Retained.initial with
    faults := retentionLostRecord :: if sag then [sagRecord] else []
    nextFault := if sag then 3 else 2
    valid := true }

theorem coldActions_eq (s : State) : coldActions s = { clearVolatile .coldStart s with
    ret := coldStore s.pins.sag
    heat := { HeatState.new with sag := if s.pins.sag then .asserted else .normal }
    trail := (if s.pins.sag then [coldStore false] else []) ++ [Retained.initial, s.ret] ++ s.trail } := by
  unfold coldActions sampleSag
  cases h : s.pins.sag
  · rw [if_neg (by simp [clearVolatile, h])]
    rfl
  · rw [if_pos (by simp [clearVolatile, h])]
    rfl

theorem runStart_of_invalid (kind : StartKind) (h : s.ret.valid = false) :
    runStart kind s = coldActions { s with power := { s.power with waiting := false } } := by
  rw [runStart, if_neg (by simp [h])]

/-- Settles O51: the cold start in one, reached by either row. -/
theorem coldStartInitialises : Obligations.ColdStartInitialises := by
  unfold Obligations.ColdStartInitialises
  intro s strap1 strap0
  dsimp only
  refine ⟨fun hv hr hret => ⟨_, rfl, ?_⟩, fun hv hr hret => ⟨_, rfl, ?_⟩, fun hv hr => ?_⟩
  · simp only [hv, hr, setStraps, Bool.false_eq_true, if_false]
    rw [runStart_of_invalid _ (by exact hret), coldActions_eq]
    cases strap1 <;> cases strap0 <;> rfl
  · simp only [hv, hr, setStraps, if_true]
    rw [runStart_of_invalid _ (by exact hret), coldActions_eq]
    cases strap1 <;> cases strap0 <;> rfl
  · change Host.Outcome.next _ = _
    simp only [hv, hr, setStraps, Bool.false_eq_true, if_false, if_true]

/-! ## Power loss and reset -/

theorem stopAt_eq (cut : Nat) (s : State) : stopAt cut s = { s with
    ret := if cut = 0 then s.ret else (s.trail[cut - 1]?).getD s.ret
    trail := [], bus := { s.bus with visit := none } } := by
  cases cut <;> rfl

/-- A part that is not live takes no row but those of the supply, of reset, and of the SAG pin. -/
theorem exec_of_dead (c : Instr) (hl : s.live = false) (h1 : ∀ a b, c ≠ .powerUp a b) (h2 : ∀ cut, c ≠ .resetNAssert cut)
    (h3 : ∀ a b, c ≠ .resetPin a b) (h4 : ∀ cut held, c ≠ .vddFall cut held) (h5 : c ≠ .vbakFall)
    (h6 : c ≠ .sagAssert) (h7 : c ≠ .sagRelease) : exec c s = .next s := by
  cases c with
  | powerUp a b => exact absurd rfl (h1 a b)
  | resetNAssert cut => exact absurd rfl (h2 cut)
  | resetPin a b => exact absurd rfl (h3 a b)
  | vddFall cut held => exact absurd rfl (h4 cut held)
  | vbakFall => exact absurd rfl h5
  | sagAssert => exact absurd rfl h6
  | sagRelease => exact absurd rfl h7
  | gatewayGap => exact (execGatewayGap.eq_def s).trans (taking_of_dead _ hl)
  | flowCharacterSent => exact (execFlowCharacterSent.eq_def s).trans (taking_of_dead _ hl)
  | frameSent => exact (execFrameSent.eq_def s).trans (taking_of_dead _ hl)
  | replyWindowClose => exact (execReplyWindowClose.eq_def s).trans (taking_of_dead _ hl)
  | receiverResume => exact (execReceiverResume.eq_def s).trans (taking_of_dead _ hl)
  | frameLengthOutOfRange len => exact (execFrameLengthOutOfRange.eq_def len s).trans (taking_of_dead _ hl)
  | _ => exact taking_of_dead _ hl

/-- Settles O50. -/
theorem powerLossAndResetStop : Obligations.PowerLossAndResetStop := by
  unfold Obligations.PowerLossAndResetStop
  refine ⟨fun s cut held => ?_, fun c s => exec_of_dead c, fun s => ⟨fun hl => ?_, fun hv a b => ?_, fun hr a b => ?_⟩⟩
  · dsimp only
    rw [← stopAt_eq]
    refine ⟨?_, ?_, rfl⟩
    · change execResetNAssert cut s = _
      unfold execResetNAssert
      cases s.live <;> rfl
    · change execVddFall cut held s = _
      rw [execVddFall, stopAt_eq]
  · have : ∀ f g : Host.Outcome State Fault Refusal, (if s.live = true then f else g) = g := fun f g =>
      if_neg (by simp [hl])
    exact ⟨this _ _, this _ _⟩
  · change execPowerUp a b s = _
    rw [execPowerUp, if_pos hv]
  · change execResetPin a b s = _
    rw [execResetPin, if_neg (by simp [hr])]

/-! ## The state after reset -/

theorem moneyLaw_of_empty {r : Retained} (hc : r.cards = []) (hp : r.prices = [])
    (hpos : ∀ p : PosIx, r.positions[p.val].config = none) (hs : ∀ p : PosIx, r.sessions[p.val] = none) : MoneyLaw r := by
  refine ⟨by simp [hc], by simp [hc], fun id => ?_, by simp [hp], fun p cfg h => ?_, fun p ses h => ?_⟩
  · simp [hc, Retained.holdsOf, hs]
  · rw [hpos] at h; exact nomatch h
  · rw [hs] at h; exact nomatch h

theorem idle_reset : Idle State.reset :=
  ⟨rfl, rfl, fun p => ⟨false, by simp [State.reset, State.vol, PosState.new]⟩,
    fun x => by simp [State.reset, State.terminal]⟩

theorem session_reset (p : PosIx) : State.reset.session p = none := by
  simp [State.reset, State.session, Retained.initial]

/-- Settles O57: a part after reset is idle, its tables are empty, and a cold start leaves it so. -/
theorem resetKeepsLaws : Obligations.ResetKeepsLaws := by
  unfold Obligations.ResetKeepsLaws
  have initial : ∀ v, StoreLaw { Retained.initial with valid := v } := by decide +kernel
  have money : MoneyLaw State.reset.ret := moneyLaw_of_empty rfl rfl
    (fun p => by simp [State.reset, Retained.initial, PosRecord.empty]) session_reset
  refine ⟨idle_reset.heatLaw session_reset, ?_, ⟨fun r hr => ?_, fun _ => ⟨rfl, fun p ses h => ?_⟩⟩, rfl, rfl, rfl,
    by decide +kernel, rfl, by decide +kernel, fun s hv hr hret hsag => ?_⟩
  · have core : CapacityCore State.reset :=
      ⟨idle_reset.queuesLaw, ⟨rfl, initial true, fun r hr => nomatch hr⟩, linkLaw_start _ _⟩
    exact core.law
  · rw [List.mem_singleton.mp hr]; exact money
  · rw [session_reset] at h; exact nomatch h
  · change execPowerUp false false s = _
    have hcold := runStart_of_invalid (s := setStraps false false
      { s with power := { s.power with vdd := true, waiting := true }, trail := [] }) .warmStart hret
    rw [execPowerUp, if_neg (by simp [hv]), if_neg (by simp [setStraps, hr]), hcold, coldActions_eq]
    simp only [setStraps, hsag, hr]
    rfl

end Sys2Proof.Machine
end

section
/-! A request that reaches a ready link, by its block's verdict (R171, R172); and the requests of the gateway link and
of the clock. -/

namespace Sys2Proof.Machine

variable {s t : State}

/-! ## The answer by the verdict -/

theorem request_of_ready (r : Request) (tag : Byte) (h : LinkReady s) :
    request r tag s
      = (let v := process r (s.heard r tag)
         .next ({ v.state with link := { v.state.link with buffer := [] } }.answered
          { type := Request.type r, tag := tag, status := v.status, payload := v.payload })) := by
  obtain ⟨hl, hrest⟩ := h
  rw [request, taking_of_live _ hl, takeRequestFrame_of_ready _ ⟨hl, hrest⟩]
  rfl

/-- A request that is refused changes nothing but the transmit queue. -/
theorem request_refused {r : Request} {tag : Byte} {st : Status} (h : LinkReady s)
    (hv : process r (s.heard r tag) = refuse st (s.heard r tag)) :
    request r tag s = .next (s.refusedWith (Request.type r) tag st) := by
  rw [request_of_ready r tag h, hv]
  obtain ⟨-, hb, -⟩ := h
  have same : { s.link with buffer := [] } = s.link := by rw [← hb]
  simp only [refuse, State.heard, State.refusedWith, same]

/-- A request that is carried out and leaves the link alone is answered OK. -/
theorem request_accepted {r : Request} {tag : Byte} {payload : List Byte} {t : State} (h : LinkReady s)
    (hv : process r (s.heard r tag) = accept payload t) (hlink : t.link = (s.heard r tag).link) :
    request r tag s = .next (State.replied { t with link := s.link } (Request.type r) tag payload) := by
  rw [request_of_ready r tag h, hv]
  obtain ⟨-, hb, -⟩ := h
  have same : { s.link with buffer := [] } = s.link := by rw [← hb]
  simp only [accept, hlink, State.heard, same]
  rfl

/-- The same, where the link's own two bits change. -/
theorem request_accepted_link {r : Request} {tag : Byte} {payload : List Byte} {f : LinkState → LinkState}
    (h : LinkReady s) (hv : process r (s.heard r tag) = accept payload ((s.heard r tag).setLink f))
    (hf : { f (s.heard r tag).link with buffer := [] } = f s.link) :
    request r tag s = .next (State.replied { s with trail := [], link := f s.link } (Request.type r) tag payload) := by
  rw [request_of_ready r tag h, hv]
  simp only [accept, State.setLink, hf]
  rfl

theorem ready_link (h : LinkReady s) : { s.link with buffer := [] } = s.link := by rw [← h.2.1]

/-! ## STATUS -/

/-- A cause is present and enabled (R178, R180). -/
def State.shows (s : State) (c : Cause) : Bool := s.causePresent c && s.causeEnabled c

theorem Cause.mem_all (c : Cause) : c ∈ Cause.all := by cases c <;> decide

theorem highestCause_eq (s : State) : s.highestCause = Cause.all.find? s.shows := rfl

theorem highestCause_eq_none : s.highestCause = none ↔ ∀ c, ¬ s.shows c = true := by
  rw [highestCause_eq, List.find?_eq_none]
  exact ⟨fun h c => h c c.mem_all, fun h c _ => h c⟩

/-- The causes stand in the order of their priority. -/
theorem Cause.all_rising : Cause.all.Pairwise fun a b => a.priority < b.priority := by decide

theorem Cause.priority_inj {c d : Cause} (h : c.priority = d.priority) : c = d := by
  revert h
  cases c <;> cases d <;> decide

/-- What a search through a list in rising order finds is the least that is sought. -/
theorem find_rising_eq_some {xs : List Cause} (hx : xs.Pairwise fun a b => a.priority < b.priority) {p : Cause → Bool}
    {c : Cause} : xs.find? p = some c ↔ c ∈ xs ∧ p c = true ∧ ∀ d ∈ xs, p d = true → c.priority ≤ d.priority := by
  induction xs with
  | nil => simp
  | cons x xs ih =>
    obtain ⟨hlt, hxs⟩ := List.pairwise_cons.mp hx
    rw [List.find?_cons]
    cases hp : p x with
    | true =>
      refine ⟨fun h => ?_, fun ⟨hmem, hc, hle⟩ => ?_⟩
      · obtain rfl : x = c := Option.some.inj h
        refine ⟨List.mem_cons_self, hp, fun d hd _ => ?_⟩
        rcases List.mem_cons.mp hd with rfl | hd
        · exact Nat.le_refl _
        · exact (hlt d hd).le
      · rcases List.mem_cons.mp hmem with rfl | hmem
        · rfl
        · exact absurd (hlt c hmem) (Nat.not_lt.mpr (hle x List.mem_cons_self hp))
    | false =>
      refine (ih hxs).trans ⟨fun ⟨hmem, hc, hle⟩ => ⟨List.mem_cons_of_mem _ hmem, hc, fun d hd hpd => ?_⟩,
        fun ⟨hmem, hc, hle⟩ => ⟨?_, hc, fun d hd => hle d (List.mem_cons_of_mem _ hd)⟩⟩
      · rcases List.mem_cons.mp hd with rfl | hd
        · rw [hp] at hpd; exact nomatch hpd
        · exact hle d hd hpd
      · rcases List.mem_cons.mp hmem with rfl | hmem
        · rw [hp] at hc; exact nomatch hc
        · exact hmem

theorem causesByte_getLsbD (s : State) :
    (∀ c, s.causesByte.getLsbD (c.priority - 1) = s.causePresent c) ∧ s.causesByte.getLsbD 7 = false := by
  have bits : ∀ b1 b2 b3 b4 b5 b6 b7 : Bool,
      let w := num1 ([if b1 then 2 ^ 0 else 0, if b2 then 2 ^ 1 else 0, if b3 then 2 ^ 2 else 0, if b4 then 2 ^ 3 else 0,
        if b5 then 2 ^ 4 else 0, if b6 then 2 ^ 5 else 0, if b7 then 2 ^ 6 else 0].sum)
      w.getLsbD 0 = b1 ∧ w.getLsbD 1 = b2 ∧ w.getLsbD 2 = b3 ∧ w.getLsbD 3 = b4 ∧ w.getLsbD 4 = b5
        ∧ w.getLsbD 5 = b6 ∧ w.getLsbD 6 = b7 ∧ w.getLsbD 7 = false := by decide +kernel
  obtain ⟨h1, h2, h3, h4, h5, h6, h7, h8⟩ := bits (s.causePresent .safety) (s.causePresent .settlementHigh)
    (s.causePresent .lockout) (s.causePresent .faultsWaiting) (s.causePresent .settlementsWaiting)
    (s.causePresent .machineChanged) (s.causePresent .restarted)
  refine ⟨fun c => ?_, h8⟩
  cases c
  · exact h1
  · exact h2
  · exact h3
  · exact h4
  · exact h5
  · exact h6
  · exact h7

theorem anyFault_iff {sev : Severity} :
    s.anyFault sev = true ↔ ∃ p f, (s.record p).fault = some f ∧ f.severity = sev := by
  simp [State.anyFault, List.any_eq_true, mem_allPositions, Option.any_eq_true]

/-- Settles O9. -/
theorem statusReportsAndClearsLatch : Obligations.StatusReportsAndClearsLatch := by
  unfold Obligations.StatusReportsAndClearsLatch
  refine ⟨fun tag s h => ?_, fun s => ?_⟩
  · refine (request_accepted_link (r := .status) (f := fun l => { l with restarted := false }) h rfl ?_).trans rfl
    exact congrArg (fun l : LinkState => { l with restarted := false }) (ready_link h)
  · have shown : ∀ c, (s.causePresent c = true ∧ s.ret.config.attnMask.getLsbD (c.priority - 1) = true)
        ↔ s.shows c = true := fun c => by simp [State.shows, State.causeEnabled]
    simp only [shown]
    refine ⟨anyFault_iff, decide_eq_true_iff, anyFault_iff,
      by simp [State.causePresent], by simp [State.causePresent],
      by simp [State.causePresent, List.any_eq_true, mem_allPositions], Iff.rfl, rfl, ?_, highestCause_eq_none,
      fun c => ?_, causesByte_getLsbD s⟩
    · have any : (Cause.all.any s.shows = true) ↔ ∃ c, s.shows c = true := by
        simp [List.any_eq_true, Cause.mem_all]
      rw [← any, ← Bool.and_eq_true]
      rfl
    · rw [highestCause_eq, find_rising_eq_some Cause.all_rising]
      simp [Cause.mem_all]

/-! ## SET CONFIG -/

theorem num2_eq (n : Nat) : num2 n = [BitVec.ofNat 8 (n / 256), BitVec.ofNat 8 n] := by
  have h1 : (BitVec.ofNat 16 n).extractLsb' 8 8 = BitVec.ofNat 8 (n / 256) := by
    apply BitVec.eq_of_toNat_eq
    simp only [BitVec.extractLsb'_toNat, BitVec.toNat_ofNat, Nat.shiftRight_eq_div_pow]
    omega
  have h2 : (BitVec.ofNat 16 n).extractLsb' 0 8 = BitVec.ofNat 8 n := by
    apply BitVec.eq_of_toNat_eq
    simp only [BitVec.extractLsb'_toNat, BitVec.toNat_ofNat, Nat.shiftRight_zero]
    omega
  rw [num2, word16, h1, h2]

/-- Settles O10. -/
theorem setConfigChangesConfiguration : Obligations.SetConfigChangesConfiguration := by
  unfold Obligations.SetConfigChangesConfiguration
  intro tag mask rate jam lost start pause fin slice settle attn s h
  refine ⟨(request_accepted (r := .setConfig mask rate jam lost start pause fin slice settle attn) h rfl
    (checkJam_link _).link).trans (congrArg _ ?_), ?_⟩
  · unfold checkJam
    dsimp only
    split
    · next hj => exact congrArg (fun u => State.replied u 0x02#8 tag _) (if_pos hj).symm
    · next hj => exact congrArg (fun u => State.replied u 0x02#8 tag _) (if_neg hj).symm
  · dsimp only
    generalize s.ret.config.apply mask rate jam lost start pause fin slice settle attn = c
    have mask : c.attnMask.setWidth 8 = BitVec.ofNat 8 c.attnMask.toNat := by
      apply BitVec.eq_of_toNat_eq; simp
    rw [RoomConfig.bytes, num2_eq, num2_eq, mask]
    cases c.busRate <;> rfl

/-- Settles O11: each value lies in its range, and the four rates divide the values at their midpoints. -/
theorem setConfigClampsValues : Obligations.SetConfigClampsValues := by
  unfold Obligations.SetConfigClampsValues
  refine ⟨fun lo hi v h => ?_, fun h r => ?_, fun ms => ?_,
    fun c mask rate jam lost start pause fin slice settle attn => ?_⟩
  · unfold clamp
    split
    · omega
    · split <;> omega
  · unfold BusRate.nearest
    split
    · cases r <;> simp only [BusRate.hundreds] <;> omega
    · split
      · cases r <;> simp only [BusRate.hundreds] <;> omega
      · split
        · cases r <;> simp only [BusRate.hundreds] <;> omega
        · cases r <;> simp only [BusRate.hundreds] <;> omega
  · unfold clampJam clamp
    split
    · omega
    · split <;> omega
  · refine ⟨rfl, rfl, rfl, rfl, rfl, rfl, rfl, rfl, fun i hi => ?_⟩
    simp only [RoomConfig.apply]
    split
    · simp [hi]
    · rfl

/-! ## RESTART and SET CLOCK -/

theorem openSessions_eq_zero : s.openSessions = 0 ↔ ∀ p, s.session p = none := by
  rw [State.openSessions, List.length_eq_zero_iff, List.filter_eq_nil_iff]
  exact ⟨fun h p => by simpa using h p (mem_allPositions p), fun h p _ => by simp [h p]⟩

/-- Settles O12. -/
theorem restartStopsProcessing : Obligations.RestartStopsProcessing := by
  unfold Obligations.RestartStopsProcessing
  refine fun tag s h => ⟨fun ⟨p, hp⟩ => ?_, fun hnone => ?_⟩
  · refine request_refused (r := .restart) h (if_neg fun h0 => ?_)
    rw [openSessions_eq_zero] at h0
    rw [show s.session p = none from h0 p] at hp
    exact nomatch hp
  · refine (request_accepted_link (r := .restart) (f := fun l => { l with restarting := true }) h
      (if_pos (openSessions_eq_zero.mpr hnone)) ?_).trans rfl
    exact congrArg (fun l : LinkState => { l with restarting := true }) (ready_link h)

theorem rollover_ret (s : State) : (rollover s).ret
    = { s.ret with cards := s.ret.cards.map fun c => { c with spent := 0 }, journal := none } := by
  rw [rollover, journalled_ret, applyEntry_eq]
  rfl

theorem rollover_eq (s : State) : rollover s = { s with ret := (rollover s).ret, trail := (rollover s).trail } := by
  rw [rollover, journalled_eq]

/-- The state with the clock that SET CLOCK gives (R79). -/
def State.clockSet (minute : BitVec 16) (second : Byte) (s : State) : State :=
  { s with clock := { minute := minute.toNat, second := second.toNat, valid := true } }

theorem processSetClock_of_cross {minute : BitVec 16} {second : Byte} (hm : minute.toNat ≤ 10079)
    (hs : second.toNat ≤ 59) (h : s.clock.valid = true ∧ minute.toNat / 1440 ≠ s.clock.minute / 1440) :
    processSetClock minute second s = accept [] (rollover (s.clockSet minute second)) := by
  unfold processSetClock
  rw [if_neg (by rw [show Config.weekMinutes = 10080 from rfl]; omega)]
  exact congrArg (accept []) (if_pos (by simpa [dayOf, Config.dayMinutes] using h))

theorem processSetClock_of_same_day {minute : BitVec 16} {second : Byte} (hm : minute.toNat ≤ 10079)
    (hs : second.toNat ≤ 59) (h : ¬(s.clock.valid = true ∧ minute.toNat / 1440 ≠ s.clock.minute / 1440)) :
    processSetClock minute second s = accept [] (s.clockSet minute second) := by
  unfold processSetClock
  rw [if_neg (by rw [show Config.weekMinutes = 10080 from rfl]; omega)]
  exact congrArg (accept []) (if_neg (by simpa [dayOf, Config.dayMinutes] using h))

/-- Settles O13. -/
theorem setClockSetsAndRollsOver : Obligations.SetClockSetsAndRollsOver := by
  unfold Obligations.SetClockSetsAndRollsOver
  refine fun tag minute second s h => ⟨fun hbad => ?_, fun hm hs => ?_⟩
  · exact request_refused (r := .setClock minute second) h (if_pos (hbad.imp (fun h => h) fun h => h))
  · by_cases hcross : s.clock.valid = true ∧ minute.toNat / 1440 ≠ s.clock.minute / 1440
    · refine ⟨(rollover ((s.heard (.setClock minute second) tag).clockSet minute second)).trail,
        (request_accepted (r := .setClock minute second) h
        (processSetClock_of_cross (s := s.heard (.setClock minute second) tag) hm hs hcross)
        (by rw [rollover_eq]; rfl)).trans ?_⟩
      rw [if_pos hcross, rollover_eq, rollover_ret]
      rfl
    · refine ⟨[], (request_accepted (r := .setClock minute second) h
        (processSetClock_of_same_day (s := s.heard (.setClock minute second) tag) hm hs hcross) rfl).trans ?_⟩
      rw [if_neg hcross]
      rfl

end Sys2Proof.Machine
end

section
/-! The tests that LOAD MACHINE, LOAD PRICE and LOAD BANDS make on their fields (R24, R83, R85). -/

namespace Sys2Proof.Machine

/-! ## Codes -/

theorem MachineClass.ofCode_eq_none {b : Byte} : MachineClass.ofCode b = none ↔ b ≠ 1#8 ∧ b ≠ 2#8 := by
  unfold MachineClass.ofCode
  split
  · simp_all
  · split <;> simp_all

theorem MachineClass.ofCode_eq_some {b : Byte} {c : MachineClass} :
    MachineClass.ofCode b = some c ↔ (c = .washer ∧ b = 1#8) ∨ (c = .dryer ∧ b = 2#8) := by
  unfold MachineClass.ofCode
  split
  · next h => subst h; cases c <;> simp
  · split
    · next h => subst h; cases c <;> simp
    · next h1 h2 => simp [h1, h2]

/-- The four option codes. -/
theorem WashOption.ofCode_cases (b : Byte) :
    (∃ o, WashOption.ofCode b = some o ∧ o.bit = b.toNat) ∨ (WashOption.ofCode b = none ∧ 3 < b.toNat) := by
  revert b
  decide +kernel

theorem WashOption.bit_le (o : WashOption) : o.bit ≤ 3 := by cases o <;> decide

theorem WashOption.bit_injective : Function.Injective WashOption.bit := by
  intro a b
  cases a <;> cases b <;> simp [WashOption.bit]

/-! ## LOAD MACHINE -/

theorem machineConfig_washer (heater motor lo hi dflt : Byte) : machineConfig 1#8 heater motor lo hi dflt
    = if heater.toNat ≤ 63 ∧ motor.toNat ≤ 15 then
        some { cls := .washer, heater := heater.toNat, motor := motor.toNat, limits := none } else none := rfl

theorem machineConfig_dryer (heater motor lo hi dflt : Byte) : machineConfig 2#8 heater motor lo hi dflt
    = if heater.toNat ≤ 63 ∧ motor.toNat ≤ 15 then
        if 5 ≤ lo.toNat ∧ lo.toNat ≤ 60 ∧ 10 ≤ hi.toNat ∧ hi.toNat ≤ 120 ∧ lo.toNat ≤ hi.toNat ∧ lo.toNat ≤ dflt.toNat
            ∧ dflt.toNat ≤ hi.toNat then
          some { cls := .dryer, heater := heater.toNat, motor := motor.toNat
                 limits := some { minimum := lo.toNat, maximum := hi.toNat, dflt := dflt.toNat } }
        else none
      else none := rfl

theorem machineConfig_of_no_class {cls : Byte} (h : MachineClass.ofCode cls = none)
    (heater motor lo hi dflt : Byte) : machineConfig cls heater motor lo hi dflt = none := by
  unfold machineConfig; rw [h]

/-- A code is that of a washer, of a dryer, or of no class. -/
theorem class_cases (cls : Byte) : cls = 1#8 ∨ cls = 2#8 ∨ MachineClass.ofCode cls = none := by
  rw [MachineClass.ofCode_eq_none]
  by_cases h1 : cls = 1#8
  · exact .inl h1
  · by_cases h2 : cls = 2#8
    · exact .inr (.inl h2)
    · exact .inr (.inr ⟨h1, h2⟩)

/-- The tests of LOAD MACHINE (R24). -/
theorem machineConfig_spec (cls heater motor lo hi dflt : Byte) :
    (machineConfig cls heater motor lo hi dflt = none ↔
      (cls ≠ 1#8 ∧ cls ≠ 2#8) ∨ 63 < heater.toNat ∨ 15 < motor.toNat
      ∨ (cls = 2#8 ∧ (lo.toNat < 5 ∨ 60 < lo.toNat ∨ hi.toNat < 10 ∨ 120 < hi.toNat ∨ hi.toNat < lo.toNat
          ∨ dflt.toNat < lo.toNat ∨ hi.toNat < dflt.toNat)))
    ∧ ∀ cfg, machineConfig cls heater motor lo hi dflt = some cfg →
      cfg.heater = heater.toNat ∧ cfg.motor = motor.toNat
      ∧ (cls = 1#8 → cfg.cls = .washer ∧ cfg.limits = none)
      ∧ (cls = 2#8 → cfg.cls = .dryer
          ∧ cfg.limits = some { minimum := lo.toNat, maximum := hi.toNat, dflt := dflt.toNat }) := by
  have h12 : ¬ (2#8 : Byte) = 1#8 := by decide
  have h21 : ¬ (1#8 : Byte) = 2#8 := by decide
  rcases class_cases cls with rfl | rfl | hnone
  · rw [machineConfig_washer]
    split
    · next h => exact ⟨by simp [h21]; omega, fun cfg hc => by cases hc; exact ⟨rfl, rfl, fun _ => ⟨rfl, rfl⟩, nofun⟩⟩
    · next h => exact ⟨by simp [h21]; omega, nofun⟩
  · rw [machineConfig_dryer]
    split
    · next h =>
      split
      · next hl =>
        exact ⟨by simp [h12]; omega, fun cfg hc => by cases hc; exact ⟨rfl, rfl, nofun, fun _ => ⟨rfl, rfl⟩⟩⟩
      · next hl => exact ⟨by simp [h12]; omega, nofun⟩
    · next h => exact ⟨by simp [h12]; omega, nofun⟩
  · rw [machineConfig_of_no_class hnone]
    exact ⟨iff_of_true rfl (.inl (MachineClass.ofCode_eq_none.mp hnone)), nofun⟩

/-! ## LOAD PRICE -/

/-- The pairs are read exactly when each code is an option's, and then by their codes. -/
theorem readPairs_cases (pairs : List (Byte × BitVec 16)) :
    (readPairs pairs = none ∧ ∃ x ∈ pairs, 3 < x.1.toNat)
    ∨ ∃ xs, readPairs pairs = some xs
      ∧ xs.map (fun x => (x.1.bit, x.2)) = pairs.map fun x => (x.1.toNat, x.2.toNat) := by
  induction pairs with
  | nil => exact .inr ⟨[], rfl, rfl⟩
  | cons x rest ih =>
    unfold readPairs
    rcases WashOption.ofCode_cases x.1 with ⟨o, ho, hbit⟩ | ⟨hnone, hlt⟩
    · rcases ih with ⟨hr, y, hy, hlt⟩ | ⟨xs, hr, hmap⟩
      · rw [ho, hr]
        exact .inl ⟨rfl, y, List.mem_cons_of_mem _ hy, hlt⟩
      · rw [ho, hr]
        exact .inr ⟨_, rfl, by rw [List.map_cons, List.map_cons, hmap, hbit]⟩
    · rw [hnone]
      exact .inl ⟨rfl, x, List.mem_cons_self, hlt⟩

/-- The tests on a surcharge list by the codes of its pairs (R83). -/
theorem surchargesOk_iff {xs : List (WashOption × Nat)} {pairs : List (Byte × BitVec 16)}
    (h : xs.map (fun x => (x.1.bit, x.2)) = pairs.map fun x => (x.1.toNat, x.2.toNat)) :
    surchargesOk xs = true
      ↔ pairs.length ≤ 4 ∧ (pairs.map (·.1)).Nodup ∧ ∀ x ∈ pairs, x.1.toNat ≤ 3 ∧ x.2.toNat ≤ 1000 := by
  have hlen : xs.length = pairs.length := by simpa using congrArg List.length h
  have hfst : (xs.map (·.1)).map WashOption.bit = (pairs.map (·.1)).map BitVec.toNat := by
    simpa [List.map_map, Function.comp_def] using congrArg (List.map Prod.fst) h
  have hnodup : (xs.map (·.1)).Nodup ↔ (pairs.map (·.1)).Nodup := by
    rw [← List.nodup_map_iff WashOption.bit_injective, hfst,
      List.nodup_map_iff fun a b => BitVec.eq_of_toNat_eq]
  have hall : (∀ x ∈ xs, x.2 ≤ 1000) ↔ ∀ x ∈ pairs, x.1.toNat ≤ 3 ∧ x.2.toNat ≤ 1000 := by
    have forall_mapped : ∀ P : Nat × Nat → Prop, (∀ y ∈ xs.map (fun x => (x.1.bit, x.2)), P y)
        ↔ ∀ y ∈ pairs.map (fun x => (x.1.toNat, x.2.toNat)), P y := fun P => by rw [h]
    have := forall_mapped fun y => y.1 ≤ 3 ∧ y.2 ≤ 1000
    simp only [List.forall_mem_map] at this
    rw [← this]
    exact forall₂_congr fun x _ => ⟨fun hx => ⟨x.1.bit_le, hx⟩, fun hx => hx.2⟩
  simp only [surchargesOk, Bool.and_eq_true, decide_eq_true_eq, List.all_eq_true, hlen, hnodup, hall, and_assoc]

theorem priceEntry_of_no_class {cls : Byte} (h : MachineClass.ofCode cls = none) (program : Byte)
    (base ph pc : BitVec 16) (n : Byte) (pairs : List (Byte × BitVec 16)) :
    priceEntry cls program base ph pc n pairs = none := by
  unfold priceEntry; rw [h]

theorem priceEntry_of_no_pairs {cls program : Byte} {base ph pc : BitVec 16} {n : Byte}
    {pairs : List (Byte × BitVec 16)} (h : readPairs pairs = none) :
    priceEntry cls program base ph pc n pairs = none := by
  unfold priceEntry; rw [h]
  cases MachineClass.ofCode cls <;> rfl

theorem priceEntry_washer {program : Byte} {base ph pc : BitVec 16} {n : Byte} {pairs : List (Byte × BitVec 16)}
    {xs : List (WashOption × Nat)} (h : readPairs pairs = some xs) :
    priceEntry 1#8 program base ph pc n pairs
      = if surchargesOk xs = true ∧ 1 ≤ program.toNat ∧ program.toNat ≤ 15 then
          if base.toNat ≤ 5000 ∧ 10 ≤ n.toNat ∧ n.toNat ≤ 180 then
            some { cls := .washer, program := program.toNat, base := base.toNat, ph := 0, pc := 0, n := n.toNat
                   surcharges := xs }
          else none
        else none := by
  unfold priceEntry
  rw [h]
  simp [MachineClass.ofCode, and_assoc]

theorem priceEntry_dryer {program : Byte} {base ph pc : BitVec 16} {n : Byte} {pairs : List (Byte × BitVec 16)}
    {xs : List (WashOption × Nat)} (h : readPairs pairs = some xs) :
    priceEntry 2#8 program base ph pc n pairs
      = if surchargesOk xs = true ∧ 1 ≤ program.toNat ∧ program.toNat ≤ 15 then
          if ph.toNat ≤ 500 ∧ pc.toNat ≤ ph.toNat then
            some { cls := .dryer, program := program.toNat, base := 0, ph := ph.toNat, pc := pc.toNat, n := 0
                   surcharges := xs }
          else none
        else none := by
  unfold priceEntry
  rw [h]
  simp [MachineClass.ofCode, and_assoc]

/-- What the tests on the pairs leave out, as LOAD PRICE's statement says it. -/
theorem not_surchargesOk_iff {pairs : List (Byte × BitVec 16)} :
    ¬ (pairs.length ≤ 4 ∧ (pairs.map (·.1)).Nodup ∧ ∀ x ∈ pairs, x.1.toNat ≤ 3 ∧ x.2.toNat ≤ 1000)
      ↔ 4 < pairs.length ∨ (∃ x ∈ pairs, 3 < x.1.toNat ∨ 1000 < x.2.toNat) ∨ ¬ (pairs.map (·.1)).Nodup := by
  have hex : (∃ x ∈ pairs, 3 < x.1.toNat ∨ 1000 < x.2.toNat)
      ↔ ¬ ∀ x ∈ pairs, x.1.toNat ≤ 3 ∧ x.2.toNat ≤ 1000 := by
    push Not
    exact exists_congr fun x => and_congr_right fun _ => by omega
  rw [hex]
  by_cases h1 : pairs.length ≤ 4
  · have h1' : ¬ 4 < pairs.length := Nat.not_lt.mpr h1
    simp only [h1, h1', true_and, false_or]
    tauto
  · exact iff_of_true (fun h => h1 h.1) (.inl (Nat.lt_of_not_le h1))

/-- The tests of LOAD PRICE (R83). -/
theorem priceEntry_spec (cls program : Byte) (base ph pc : BitVec 16) (n : Byte) (pairs : List (Byte × BitVec 16)) :
    (priceEntry cls program base ph pc n pairs = none ↔
      (cls ≠ 1#8 ∧ cls ≠ 2#8) ∨ program.toNat = 0 ∨ 15 < program.toNat
      ∨ (cls = 1#8 ∧ (5000 < base.toNat ∨ n.toNat < 10 ∨ 180 < n.toNat))
      ∨ (cls = 2#8 ∧ (500 < ph.toNat ∨ ph.toNat < pc.toNat))
      ∨ 4 < pairs.length ∨ (∃ x ∈ pairs, 3 < x.1.toNat ∨ 1000 < x.2.toNat) ∨ ¬ (pairs.map (·.1)).Nodup)
    ∧ ∀ e, priceEntry cls program base ph pc n pairs = some e →
      e.program = program.toNat
      ∧ e.surcharges.map (fun x => (x.1.bit, x.2)) = pairs.map (fun x => (x.1.toNat, x.2.toNat))
      ∧ (cls = 1#8 → e.cls = .washer ∧ e.base = base.toNat ∧ e.n = n.toNat ∧ e.ph = 0 ∧ e.pc = 0)
      ∧ (cls = 2#8 → e.cls = .dryer ∧ e.base = 0 ∧ e.n = 0 ∧ e.ph = ph.toNat ∧ e.pc = pc.toNat) := by
  have h12 : ¬ (2#8 : Byte) = 1#8 := by decide
  have h21 : ¬ (1#8 : Byte) = 2#8 := by decide
  rcases readPairs_cases pairs with ⟨hnone, x, hx, hlt⟩ | ⟨xs, hxs, hmap⟩
  · rw [priceEntry_of_no_pairs hnone]
    exact ⟨iff_of_true rfl (.inr (.inr (.inr (.inr (.inr (.inr (.inl ⟨x, hx, .inl hlt⟩))))))), nofun⟩
  · have hok := surchargesOk_iff hmap
    rw [← not_surchargesOk_iff, ← hok]
    rcases class_cases cls with rfl | rfl | hnone
    · rw [priceEntry_washer hxs]
      split
      · next h =>
        split
        · next hv =>
          exact ⟨by simp [h21, h.1]; omega,
            fun e he => by cases he; exact ⟨rfl, hmap, fun _ => ⟨rfl, rfl, rfl, rfl, rfl⟩, nofun⟩⟩
        · next hv => exact ⟨by simp [h21, h.1]; omega, nofun⟩
      · next h =>
        refine ⟨iff_of_true rfl ?_, nofun⟩
        by_cases hs : surchargesOk xs = true
        · simp only [hs, true_and] at h; omega
        · exact .inr (.inr (.inr (.inr (.inr hs))))
    · rw [priceEntry_dryer hxs]
      split
      · next h =>
        split
        · next hv =>
          exact ⟨by simp [h12, h.1]; omega,
            fun e he => by cases he; exact ⟨rfl, hmap, nofun, fun _ => ⟨rfl, rfl, rfl, rfl, rfl⟩⟩⟩
        · next hv => exact ⟨by simp [h12, h.1]; omega, nofun⟩
      · next h =>
        refine ⟨iff_of_true rfl ?_, nofun⟩
        by_cases hs : surchargesOk xs = true
        · simp only [hs, true_and] at h; omega
        · exact .inr (.inr (.inr (.inr (.inr hs))))
    · rw [priceEntry_of_no_class hnone]
      exact ⟨iff_of_true rfl (.inl (MachineClass.ofCode_eq_none.mp hnone)), nofun⟩

/-- Settles O14. -/
theorem tableLoadTests : Obligations.TableLoadTests := by
  unfold Obligations.TableLoadTests
  exact ⟨machineConfig_spec, priceEntry_spec⟩

end Sys2Proof.Machine
end

section
/-! The requests of the position table and of the terminal table (R24 to R28, R34, R46, R47). -/

namespace Sys2Proof.Machine

variable {s t : State}

/-! ## What the operations make of the state -/

theorem isEmpty_filter {α : Type} (f : α → Bool) (xs : List α) : (xs.filter f).isEmpty = !xs.any f := by
  induction xs with
  | nil => rfl
  | cons x xs ih =>
    rw [List.filter_cons, List.any_cons]
    cases f x
    · exact ih
    · rfl

/-- A change of configuration moves the slot and nothing else (R12). -/
theorem settleSlot_eq (s : State) : settleSlot s = s.setBus fun b =>
    { b with slot := settledSlot b.slot (allPositions.any s.configured) (allTerminals.any s.termConfigured) } := by
  have same : (s.setBus fun b => { b with slot := s.bus.slot }) = s := rfl
  unfold settleSlot
  rw [State.machines, State.terminals, isEmpty_filter, isEmpty_filter]
  change _ = s.setBus fun b => { b with slot := settledSlot s.bus.slot _ _ }
  generalize s.bus.slot = slot at same ⊢
  cases slot <;> cases allPositions.any s.configured <;> cases allTerminals.any s.termConfigured <;>
    simp only [settledSlot, same, Bool.not_true, Bool.not_false]

theorem askHeatOff_of_empty {p : PosIx} (h : (s.vol p).orders = []) :
    askHeatOff p s = s.setVol p fun v => { v with orders := [newOrder .heatOff] } := by
  have hstep : Urgent.heatOff.step (s.vol p).orders
      = { orders := [newOrder .heatOff], removed := none, finished := true } := by rw [h]; rfl
  unfold askHeatOff askUrgent
  rw [show 3 * Config.orderCapacity = 11 + 1 from rfl, askUrgentFor_last _ _ _ _ _ (by rw [hstep]), hstep,
    makeStep_none _ _ _ _ rfl]

/-- Two changes of one position in one. -/
theorem setVol_setVol (p : PosIx) (f g : PosState → PosState) (s : State) :
    (s.setVol p f).setVol p g = s.setVol p fun v => g (f v) := by
  simp [State.setVol]

theorem configured_setRecord (p q : PosIx) (f : PosRecord → PosRecord) (s : State) :
    (s.setRecord p f).configured q = if p = q then (f (s.record p)).config.isSome else s.configured q := by
  rw [State.configured, State.record_setRecord]
  split
  · rfl
  · rfl

/-! ## LOAD MACHINE and REMOVE MACHINE -/

theorem configureNew_eq (p : PosIx) (cfg : PosConfig) (s : State) : configureNew p cfg s = { s with
    trail := s.ret :: s.trail
    ret := { s.ret with positions := s.ret.positions.set p.val { config := some cfg, oos := false, fault := none } }
    pos := s.pos.set p.val { PosState.new with changed := true, orders := [newOrder .heatOff] }
    bus := { s.bus with slot := settledSlot s.bus.slot true (allTerminals.any s.termConfigured) } } := by
  have hany : allPositions.any
      (s.setRecord p fun _ => { config := some cfg, oos := false, fault := none }).configured = true :=
    List.any_eq_true.mpr ⟨p, mem_allPositions p, by rw [configured_setRecord, if_pos rfl]; rfl⟩
  unfold configureNew
  dsimp only
  rw [askHeatOff_of_empty (by rw [State.vol_setVol, if_pos rfl]; rfl), setVol_setVol, settleSlot_eq]
  rw [show allPositions.any ((s.setRecord p fun _ => { config := some cfg, oos := false, fault := none }).setVol p
    fun _ => { PosState.new with changed := true, orders := [newOrder .heatOff] }).configured = true from hany]
  rfl

theorem positionHeld_iff {p : PosIx} :
    s.positionHeld p = true ↔ (s.session p).isSome = true ∨ (s.vol p).grant ≠ .none := by
  simp [State.positionHeld]

theorem positionHeld_eq_false {p : PosIx} (hs : s.session p = none) (hg : (s.vol p).grant = .none) :
    s.positionHeld p = false := by
  simp [State.positionHeld, hs, hg]

/-- Settles O15. -/
theorem loadMachineConfigures : Obligations.LoadMachineConfigures := by
  unfold Obligations.LoadMachineConfigures
  intro tag addr cls heater motor lo hi dflt s h
  refine ⟨fun hbad => ?_, fun p cfg hp hcfg => ⟨fun hnone => ?_, fun old hold => ⟨fun hheld => ?_, fun hses hg => ?_⟩⟩⟩
  · refine request_refused (r := .loadMachine addr cls heater motor lo hi dflt) h ?_
    rw [process, processLoadMachine]
    rcases hbad with hbad | hbad
    · rw [hbad]
    · rw [hbad]
      cases posOf addr <;> rfl
  · have hv : process (.loadMachine addr cls heater motor lo hi dflt)
        (s.heard (.loadMachine addr cls heater motor lo hi dflt) tag)
        = accept [] (configureNew p cfg (s.heard (.loadMachine addr cls heater motor lo hi dflt) tag)) := by
      rw [process, processLoadMachine]
      rw [hp, hcfg]
      dsimp only
      rw [show (State.record (s.heard _ tag) p).config = none from hnone]
    exact ⟨[s.ret], (request_accepted h hv (by rw [configureNew_eq])).trans (by rw [configureNew_eq]; rfl)⟩
  · refine request_refused (r := .loadMachine addr cls heater motor lo hi dflt) h ?_
    rw [process, processLoadMachine]
    rw [hp, hcfg]
    dsimp only
    rw [show (State.record (s.heard _ tag) p).config = some old from hold]
    exact if_pos (positionHeld_iff.mpr hheld)
  · have hv : process (.loadMachine addr cls heater motor lo hi dflt)
        (s.heard (.loadMachine addr cls heater motor lo hi dflt) tag)
        = accept [] (configureAgain p old cfg (s.heard (.loadMachine addr cls heater motor lo hi dflt) tag)) := by
      rw [process, processLoadMachine]
      rw [hp, hcfg]
      dsimp only
      rw [show (State.record (s.heard _ tag) p).config = some old from hold]
      exact if_neg (fun held => Bool.false_ne_true ((positionHeld_eq_false hses hg).symm.trans held))
    refine (request_accepted h hv (configureAgain_link ..).link).trans ?_
    unfold configureAgain
    dsimp only
    split <;> rfl

theorem removePosition_eq (p : PosIx) (s : State) : removePosition p s = { s with
    trail := s.ret :: s.trail
    ret := { s.ret with positions := s.ret.positions.set p.val { config := none, oos := false, fault := none } }
    pos := s.pos.set p.val { PosState.new with changed := true }
    bus := { s.bus with
      slot := settledSlot s.bus.slot (allPositions.any fun q => q != p && s.configured q)
        (allTerminals.any s.termConfigured)
      visit := s.bus.visit.map fun v => if v.node = .machine p then { v with removed := true } else v } } := by
  have hany : (s.setRecord p fun _ => PosRecord.empty).configured = fun q => q != p && s.configured q := by
    funext q
    rw [configured_setRecord]
    by_cases hq : p = q
    · subst hq; simp [PosRecord.empty]
    · simp [hq, Ne.symm hq]
  unfold removePosition
  dsimp only
  rw [settleSlot_eq]
  rw [show (discardVisit (.machine p) ((s.setRecord p fun _ => PosRecord.empty).setVol p
    fun _ => { PosState.new with changed := true })).configured = _ from hany]
  rfl

/-- Settles O16. -/
theorem removeMachineDiscards : Obligations.RemoveMachineDiscards := by
  unfold Obligations.RemoveMachineDiscards
  intro tag addr s h
  refine ⟨fun hbad => ?_, fun p hp hc => ⟨fun hheld => ?_, fun hses hg => ?_⟩⟩
  · refine request_refused (r := .removeMachine addr) h ?_
    rw [process, processRemoveMachine]
    cases hp : posOf addr with
    | none => rfl
    | some p => exact if_pos (by rw [show State.configured (s.heard _ tag) p = false from hbad p hp]; rfl)
  · refine request_refused (r := .removeMachine addr) h ?_
    rw [process, processRemoveMachine]
    rw [hp]
    dsimp only
    rw [if_neg (by rw [show State.configured (s.heard _ tag) p = true from hc]; exact Bool.false_ne_true)]
    exact if_pos (positionHeld_iff.mpr hheld)
  · have hv : process (.removeMachine addr) (s.heard (.removeMachine addr) tag)
        = accept [] (removePosition p (s.heard (.removeMachine addr) tag)) := by
      rw [process, processRemoveMachine]
      rw [hp]
      dsimp only
      rw [if_neg (by rw [show State.configured (s.heard _ tag) p = true from hc]; exact Bool.false_ne_true)]
      exact if_neg (fun held => Bool.false_ne_true ((positionHeld_eq_false hses hg).symm.trans held))
    refine (request_accepted h hv (by rw [removePosition_eq])).trans ?_
    rw [removePosition_eq]
    rfl

/-! ## SERVICE -/

theorem flagOfCode_of_le {b : Byte} (h : b.toNat ≤ 1) : flagOfCode b = some (decide (b = 1#8)) := by
  revert h
  revert b
  decide +kernel

theorem flagOfCode_of_gt {b : Byte} (h : 1 < b.toNat) : flagOfCode b = none := by
  revert h
  revert b
  decide +kernel

theorem askDisplay_eq (p : PosIx) (s : State) : askDisplay p s =
    (let q := queueDisplay (if s.outOfOrder p then .disable else .enable) (s.vol p).orders
     s.setVol p fun v => { v with orders := q.1, owed := q.2 }) := rfl

/-- OUT_OF_SERVICE at a position without a session (R26 to R28). -/
theorem setService_eq {p : PosIx} (hc : s.configured p = true) (hs : s.session p = none) (on : Bool) :
    setService p on s
      = (let v := s.vol p
         let q := queueDisplay (if on then .disable else .enable) v.orders
         { s with
            trail := s.ret :: s.trail
            ret := { s.ret with positions := s.ret.positions.set p.val { s.record p with oos := on } }
            pos := if (s.record p).oos ≠ on ∧ (s.record p).fault = none then
                s.pos.set p.val { v with
                  orders := q.1, owed := q.2, changed := v.changed || v.bus.presence == .present }
              else s.pos }) := by
  have hrec : (s.setRecord p fun r => { r with oos := on }).record p = { s.record p with oos := on } := by
    rw [State.record_setRecord, if_pos rfl]
  have avail : ∀ u : State, u.record p = { s.record p with oos := on } → u.session p = none →
      u.availability p = if (u.vol p).bus.presence == .present && !(s.record p).fault.isSome && !on then .free
        else .unavailable := fun u hu hus => by
    have hcu : u.configured p = true := by rw [State.configured, hu]; exact hc
    rw [State.availability, if_neg (by simp [hcu]), if_neg (by simp [hus]), hu]
  have before : s.availability p = if (s.vol p).bus.presence == .present && !(s.record p).fault.isSome
      && !(s.record p).oos then .free else .unavailable := by
    rw [State.availability, if_neg (by simp [hc]), if_neg (by simp [hs])]
  have ood : (s.setRecord p fun r => { r with oos := on }).outOfOrder p = (on || (s.record p).fault.isSome) := by
    rw [State.outOfOrder, hrec]
  have was : s.outOfOrder p = ((s.record p).oos || (s.record p).fault.isSome) := rfl
  unfold setService
  dsimp only
  by_cases hchange : (s.record p).oos ≠ on ∧ (s.record p).fault = none
  · rw [if_pos hchange]
    obtain ⟨hne, hf⟩ := hchange
    have hflip : (s.record p).oos = !on := by revert hne; cases (s.record p).oos <;> cases on <;> decide
    have told : withDisplay p (fun r => { r with oos := on }) s
        = askDisplay p (s.setRecord p fun r => { r with oos := on }) := by
      unfold withDisplay
      dsimp only
      rw [ood, was, if_pos (by simp [hf, hflip])]
    have hon : (on || (s.record p).fault.isSome) = on := by simp [hf]
    have after := avail (askDisplay p (s.setRecord p fun r => { r with oos := on })) hrec hs
    rw [show ((askDisplay p (s.setRecord p fun r => { r with oos := on })).vol p).bus = (s.vol p).bus by
      rw [askDisplay_eq, State.vol_setVol, if_pos rfl]; rfl] at after
    rw [told]
    cases hpres : (s.vol p).bus.presence == .present
    · rw [if_pos (by rw [after, before, hpres]; rfl), askDisplay_eq, ood, hon, Bool.or_false]
      rfl
    · rw [if_neg (by rw [after, before, hpres, hf, hflip]; cases on <;> decide), State.markChanged, askDisplay_eq, ood,
        hon, setVol_setVol, Bool.or_true]
      rfl
  · rw [if_neg hchange]
    have hsame : (s.record p).fault = none → (s.record p).oos = on := fun hf => by
      by_contra hne; exact hchange ⟨hne, hf⟩
    have quiet : withDisplay p (fun r => { r with oos := on }) s = s.setRecord p fun r => { r with oos := on } := by
      unfold withDisplay
      dsimp only
      rw [ood, was]
      cases hf : (s.record p).fault with
      | some f => simp
      | none => simp [hsame hf]
    have hav : (!(s.record p).fault.isSome && !on) = (!(s.record p).fault.isSome && !(s.record p).oos) := by
      cases hf : (s.record p).fault with
      | some f => rfl
      | none => rw [hsame hf]
    rw [quiet, avail _ hrec hs, before, State.vol_setRecord_same, Bool.and_assoc, Bool.and_assoc, hav, if_pos rfl]
    rfl

/-- Settles O17. -/
theorem serviceSetsOutOfService : Obligations.ServiceSetsOutOfService := by
  unfold Obligations.ServiceSetsOutOfService
  intro tag addr value s h
  have known : ∀ p, posOf addr = some p → s.configured p = true →
      process (.service addr value) (s.heard (.service addr value) tag)
        = match flagOfCode value with
          | none => refuse .badValue (s.heard (.service addr value) tag)
          | some oos => if (s.session p).isSome then refuse .inUse (s.heard (.service addr value) tag)
            else accept [] (setService p oos (s.heard (.service addr value) tag)) := fun p hp hc => by
    rw [process, processService]
    rw [hp]
    dsimp only
    rw [if_neg (by rw [show State.configured (s.heard _ tag) p = true from hc]; exact Bool.false_ne_true)]
    rfl
  refine ⟨fun hbad => ?_, fun p hp hc => ⟨fun hv => ?_, fun hv hses => ?_, fun hv hses => ?_⟩⟩
  · refine request_refused (r := .service addr value) h ?_
    rw [process, processService]
    cases hp : posOf addr with
    | none => rfl
    | some p => exact if_pos (by rw [show State.configured (s.heard _ tag) p = false from hbad p hp]; rfl)
  · exact request_refused (r := .service addr value) h ((known p hp hc).trans (by rw [flagOfCode_of_gt hv]))
  · exact request_refused (r := .service addr value) h
      ((known p hp hc).trans (by rw [flagOfCode_of_le hv]; exact if_pos hses))
  · have hset := setService_eq (s := s.heard (.service addr value) tag) hc hses (decide (value = 1#8))
    refine (request_accepted (r := .service addr value) h
      ((known p hp hc).trans (by rw [flagOfCode_of_le hv]; exact if_neg (by simp [hses]))) (by rw [hset])).trans ?_
    rw [hset]
    rfl

/-! ## LOAD TERMINAL and REMOVE TERMINAL -/

theorem termConfigured_setTerminal (x y : TermIx) (on : Bool) (s : State) :
    (s.setTerminal x on).termConfigured y = if x = y then on else s.termConfigured y := by
  simp only [State.termConfigured, State.setTerminal, State.write_ret, Vector.getElem_set]
  by_cases hxy : x = y
  · subst hxy; simp
  · rw [if_neg hxy, if_neg fun e => hxy (Fin.ext e)]

theorem mem_allTerminals (t : TermIx) : t ∈ allTerminals := by
  have all : ∀ t : TermIx, t ∈ allTerminals := by decide
  exact all t

/-- Settles O19. -/
theorem terminalsLoadedAndRemoved : Obligations.TerminalsLoadedAndRemoved := by
  unfold Obligations.TerminalsLoadedAndRemoved
  intro tag addr s h
  refine ⟨fun hnone => ⟨?_, ?_⟩, fun t ht => ⟨fun hc => ?_, fun hc => ⟨?_, ?_⟩, fun hc hr => ?_, fun hc hr => ?_⟩⟩
  · refine request_refused (r := .loadTerminal addr) h ?_
    rw [process, processLoadTerminal]
    rw [hnone]
  · refine request_refused (r := .removeTerminal addr) h ?_
    rw [process, processRemoveTerminal]
    rw [hnone]
  · refine request_accepted (r := .loadTerminal addr) (t := s.heard (.loadTerminal addr) tag) h ?_ rfl
    rw [process, processLoadTerminal]
    rw [ht]
    exact if_pos hc
  · refine request_refused (r := .removeTerminal addr) h ?_
    rw [process, processRemoveTerminal]
    rw [ht]
    exact if_pos (by rw [show State.termConfigured (s.heard _ tag) t = false from hc]; rfl)
  · have hv : process (.loadTerminal addr) (s.heard (.loadTerminal addr) tag)
        = accept [] (settleSlot (((s.heard (.loadTerminal addr) tag).setTerminal t true).setTerm t
            fun _ => TermState.new)) := by
      rw [process, processLoadTerminal]
      rw [ht]
      exact if_neg (by rw [show State.termConfigured (s.heard _ tag) t = false from hc]; exact Bool.false_ne_true)
    refine (request_accepted (r := .loadTerminal addr) h hv (settleSlot_link _).link).trans ?_
    have hany : allTerminals.any (((s.heard (.loadTerminal addr) tag).setTerminal t true).setTerm t
        fun _ => TermState.new).termConfigured = true :=
      List.any_eq_true.mpr ⟨t, mem_allTerminals t, (termConfigured_setTerminal t t true _).trans (if_pos rfl)⟩
    rw [settleSlot_eq, hany]
    rfl
  · refine request_refused (r := .removeTerminal addr) h ?_
    rw [process, processRemoveTerminal]
    rw [ht]
    dsimp only
    rw [if_neg (by rw [show State.termConfigured (s.heard _ tag) t = true from hc]; exact Bool.false_ne_true)]
    exact if_pos hr
  · have hv : process (.removeTerminal addr) (s.heard (.removeTerminal addr) tag)
        = accept [] (settleSlot (discardVisit (.terminal t)
            (((s.heard (.removeTerminal addr) tag).setTerminal t false).setTerm t fun _ => TermState.new))) := by
      rw [process, processRemoveTerminal]
      rw [ht]
      dsimp only
      rw [if_neg (by rw [show State.termConfigured (s.heard _ tag) t = true from hc]; exact Bool.false_ne_true)]
      exact if_neg (by rw [show (State.terminal (s.heard _ tag) t).request = none from hr]; exact Bool.false_ne_true)
    refine (request_accepted (r := .removeTerminal addr) h hv (settleSlot_link _).link).trans ?_
    have hterm : (discardVisit (.terminal t) (((s.heard (.removeTerminal addr) tag).setTerminal t false).setTerm t
        fun _ => TermState.new)).termConfigured = fun u => u != t && s.termConfigured u := by
      funext u
      refine (termConfigured_setTerminal t u false _).trans ?_
      by_cases hu : t = u
      · subst hu; simp
      · rw [if_neg hu]
        simp [Ne.symm hu, State.heard, State.termConfigured]
    rw [settleSlot_eq, hterm]
    rfl

end Sys2Proof.Machine
end

section
/-! READ MACHINES with its entries (R34, R196), and the outbox of a terminal (R52, R54, R55, R57, R58). -/

namespace Sys2Proof.Machine

variable {s t : State}

/-! ## The changed flags -/

theorem foldl_setVol (f : PosIx → PosState → PosState) (ps : List PosIx) (hnd : ps.Nodup) : ∀ s : State,
    (∀ q, (ps.foldl (fun s p => s.setVol p (f p)) s).vol q = if q ∈ ps then f q (s.vol q) else s.vol q)
    ∧ ps.foldl (fun s p => s.setVol p (f p)) s = { s with pos := (ps.foldl (fun s p => s.setVol p (f p)) s).pos } := by
  induction ps with
  | nil => exact fun s => ⟨fun q => rfl, rfl⟩
  | cons p rest ih =>
    intro s
    obtain ⟨hp, hnd⟩ := List.nodup_cons.mp hnd
    obtain ⟨hvol, heq⟩ := ih hnd (s.setVol p (f p))
    refine ⟨fun q => ?_, heq⟩
    rw [List.foldl_cons, hvol, State.vol_setVol]
    by_cases hq : p = q
    · subst hq
      simp [hp]
    · simp [hq, Ne.symm hq]

/-- A change of every position (section 2-5). -/
theorem vol_setAllVol (f : PosIx → PosState → PosState) (s : State) (q : PosIx) :
    (s.setAllVol f).vol q = f q (s.vol q) :=
  ((foldl_setVol f allPositions nodup_allPositions s).1 q).trans (if_pos (mem_allPositions q))

theorem setAllVol_eq (f : PosIx → PosState → PosState) (s : State) :
    s.setAllVol f = { s with pos := (s.setAllVol f).pos } :=
  (foldl_setVol f allPositions nodup_allPositions s).2

theorem byte_le_one {b : Byte} (h : b.toNat ≤ 1) : b = 0#8 ∨ b = 1#8 := by
  revert h
  revert b
  decide +kernel

/-- READ MACHINES of some addresses, which hold every changed flag that is set or are all (R34). -/
theorem readEntries_spec {ps : List PosIx} (hps : ∀ p, p ∈ ps ∨ (s.vol p).changed = false) :
    ∃ pos : Vector PosState 24,
      readEntries ps s = accept (num1 ps.length :: ps.flatMap s.machineEntry) { s with pos := pos }
      ∧ ∀ p : PosIx, pos[p.val] = { s.vol p with changed := false } := by
  refine ⟨_, congrArg (accept _) (setAllVol_eq _ s), fun p => ?_⟩
  have hvol := vol_setAllVol (fun p v => if ps.contains p then { v with changed := false } else v) s p
  refine hvol.trans ?_
  split
  · rfl
  · next hnot =>
    have hc : (s.vol p).changed = false := (hps p).resolve_left fun hmem => hnot (by simpa using hmem)
    rw [← hc]

/-! ## The entry of a position -/

theorem class_code (c : Option PosConfig) : (c.map (·.cls.code)).getD 3
    = match c.map (·.cls) with
      | none => 3
      | some .washer => 1
      | some .dryer => 2 := by
  cases c with
  | none => rfl
  | some c => cases hc : c.cls <;> simp [hc, MachineClass.code]

/-- The state byte of an entry (R196). -/
theorem stateByte_eq (s : State) (p : PosIx) :
    let r := s.record p
    let v := s.vol p
    (num1 ((s.availability p).code + 4 * (if r.config.isSome then v.bus.presence.code else 3)
      + 16 * ((r.config.map (·.cls.code)).getD 3) + 64 * (if r.oos then 1 else 0))).toNat
    = (if r.config = none then 0
       else if (s.session p).isSome then 2
       else if v.bus.presence = .present ∧ r.fault = none ∧ r.oos = false then 1 else 3)
      + 4 * (if r.config = none then 3 else match v.bus.presence with
        | .unheard => 0
        | .present => 1
        | .lost => 2)
      + 16 * (match r.config.map (·.cls) with
        | none => 3
        | some .washer => 1
        | some .dryer => 2)
      + 64 * (if r.oos then 1 else 0) := by
  dsimp only
  have avail : (s.availability p).code = if (s.record p).config = none then 0
      else if (s.session p).isSome then 2
      else if (s.vol p).bus.presence = .present ∧ (s.record p).fault = none ∧ (s.record p).oos = false
        then 1 else 3 := by
    unfold State.availability State.configured
    cases hc : (s.record p).config with
    | none => rfl
    | some c =>
      cases (s.session p).isSome with
      | true => rfl
      | false =>
        cases (s.vol p).bus.presence <;> cases (s.record p).fault <;> cases (s.record p).oos <;> rfl
  have present : (if (s.record p).config.isSome then (s.vol p).bus.presence.code else 3)
      = if (s.record p).config = none then 3 else match (s.vol p).bus.presence with
        | .unheard => 0
        | .present => 1
        | .lost => 2 := by
    cases (s.record p).config with
    | none => rfl
    | some c => cases (s.vol p).bus.presence <;> rfl
  rw [avail, present, class_code]
  apply toNat_num1
  have h1 : (if (s.record p).config = none then 0
      else if (s.session p).isSome then 2
      else if (s.vol p).bus.presence = .present ∧ (s.record p).fault = none ∧ (s.record p).oos = false
        then 1 else 3) ≤ 3 := by split_ifs <;> decide
  have h2 : (if (s.record p).config = none then 3 else match (s.vol p).bus.presence with
        | .unheard => 0
        | .present => 1
        | .lost => 2) ≤ 3 := by
    split
    · decide
    · cases (s.vol p).bus.presence <;> decide
  have h3 : (match (s.record p).config.map (·.cls) with
        | none => 3
        | some .washer => 1
        | some .dryer => 2) ≤ 3 := by
    split <;> decide
  have h4 : (if (s.record p).oos then 1 else 0) ≤ 1 := by split <;> decide
  omega

/-- The byte of session and grant of an entry (R196). -/
theorem grantByte_eq (ses : Option Session) (g : Grant) :
    (num1 ((ses.map (·.state.code)).getD 15 + 16 * g.code)).toNat
      = (match ses.map (·.state) with
          | none => 15
          | some .starting => 0
          | some .running => 1
          | some .paused => 2
          | some .ending => 3)
        + 16 * (match g with
          | .none => 0
          | .queued => 1
          | .granted => 2
          | .releasing => 3) := by
  have hs : (ses.map (·.state.code)).getD 15 = match ses.map (·.state) with
      | none => 15
      | some .starting => 0
      | some .running => 1
      | some .paused => 2
      | some .ending => 3 := by
    cases ses with
    | none => rfl
    | some x => cases hx : x.state <;> simp [hx, SessionState.code]
  rw [hs]
  have bound : (match ses.map (·.state) with
      | none => 15
      | some .starting => 0
      | some .running => 1
      | some .paused => 2
      | some .ending => 3) ≤ 15 := by split <;> decide
  have code : g.code = match g with
      | .none => 0
      | .queued => 1
      | .granted => 2
      | .releasing => 3 := by cases g <;> rfl
  have gbound : g.code ≤ 3 := by cases g <;> decide
  rw [← code]
  exact toNat_num1 (by omega)

/-- The byte of door, heater and orders of an entry (R196). -/
theorem displayByte_eq (x : Option LastState) {n : Nat} (hn : n ≤ 4) :
    (num1 (tri (x.map (·.doorLocked)) + 4 * tri (x.map (·.heaterOn)) + 16 * n)).toNat
      = (match x with
          | none => 15
          | some x => (if x.doorLocked then 1 else 0) + 4 * (if x.heaterOn then 1 else 0)) + 16 * n := by
  cases x with
  | none => exact toNat_num1 (by simp [tri]; omega)
  | some x =>
    simp only [Option.map_some]
    rw [toNat_num1]
    · cases x.doorLocked <;> cases x.heaterOn <;> rfl
    · cases x.doorLocked <;> cases x.heaterOn <;> simp only [tri] <;> omega

/-- Settles O18. -/
theorem readMachinesClearsFlags : Obligations.ReadMachinesClearsFlags := by
  unfold Obligations.ReadMachinesClearsFlags
  refine ⟨fun tag mode s h => ⟨fun hv => ?_, fun hv => ?_⟩, fun s p => ⟨_, _, _, _, _, _, _, rfl, stateByte_eq s p, ?_,
    grantByte_eq _ _, fun hn => ?_, fun x hx => ⟨?_, ?_, ?_⟩, fun hq => displayByte_eq _ hq⟩⟩
  · refine request_refused (r := .readMachines mode) h ?_
    rw [process, processReadMachines, if_neg (by rintro rfl; exact absurd hv (by decide)),
      if_neg (by rintro rfl; exact absurd hv (by decide))]
  · rcases byte_le_one hv with rfl | rfl
    · obtain ⟨pos, hread, hpos⟩ := readEntries_spec (s := s.heard (.readMachines 0#8) tag) (ps := allPositions)
        fun p => .inl (mem_allPositions p)
      exact ⟨pos, (request_accepted (r := .readMachines 0#8) h hread rfl), hpos⟩
    · obtain ⟨pos, hread, hpos⟩ := readEntries_spec (s := s.heard (.readMachines 1#8) tag)
        (ps := allPositions.filter fun p => (s.vol p).changed) fun p => by
          cases hc : (s.vol p).changed with
          | false => exact .inr hc
          | true => exact .inl (List.mem_filter.mpr ⟨mem_allPositions p, hc⟩)
      exact ⟨pos, (request_accepted (r := .readMachines 1#8) h hread rfl), hpos⟩
  · cases (s.record p).fault <;> rfl
  · rw [hn]
    exact ⟨rfl, rfl, rfl⟩
  · rw [hx]
    change (num1 x.mstate.code).toNat = _
    cases x.mstate <;> rfl
  · rw [hx]
    change (num1 x.phase.code).toNat = _
    cases x.phase <;> rfl
  · rw [hx]
    rfl

end Sys2Proof.Machine
end

section
/-! The outbox of a terminal (R52, R54, R55, R57, R58). -/

namespace Sys2Proof.Machine

variable {s t : State}

/-! ## Places in the outbox -/

theorem waitingText_iff (i : Item) : i.waitingText = true ↔ i.tag = none ∧ ∃ chars, i.body = .text chars := by
  unfold Item.waitingText Item.isText
  cases hb : i.body <;> simp [Option.isNone_iff_eq_none]

/-- An ANSWER takes its place ahead of the undelivered TEXTs, of which the oldest leaves a full outbox (R54, R55). -/
theorem placeAnswer_spec (i : Item) {ahead texts : List Item} (ha : ∀ x ∈ ahead, x.waitingText = false)
    (ht : ∀ x ∈ texts, x.waitingText = true) :
    ((ahead ++ texts).length < 4 → placeAnswer i (ahead ++ texts) = ahead ++ i :: texts)
    ∧ ∀ oldest rest, texts = oldest :: rest → (ahead ++ texts).length = 4 →
      placeAnswer i (ahead ++ texts) = ahead ++ i :: rest := by
  have before : ∀ texts : List Item, (∀ x ∈ texts, x.waitingText = true) →
      (ahead ++ texts).takeWhile (fun x => !x.waitingText) = ahead
      ∧ (ahead ++ texts).dropWhile (fun x => !x.waitingText) = texts := fun texts ht => by
    have hall : ∀ x ∈ ahead, (!x.waitingText) = true := fun x hx => by rw [ha x hx]; rfl
    rw [List.takeWhile_append_of_pos hall, List.dropWhile_append_of_pos hall]
    cases texts with
    | nil => simp
    | cons x xs =>
      have hx := ht x List.mem_cons_self
      simp [hx]
  have cap : Config.outboxCapacity = 4 := rfl
  refine ⟨fun hlen => ?_, fun oldest rest he hlen => ?_⟩
  · unfold placeAnswer
    dsimp only
    rw [if_pos (show (ahead ++ texts).length < Config.outboxCapacity from hlen),
      if_pos (show (ahead ++ texts).length < Config.outboxCapacity from hlen), (before texts ht).1, (before texts ht).2]
  · have gone : (ahead ++ texts).eraseP Item.waitingText = ahead ++ rest := by
      rw [List.eraseP_append_right _ fun x hx => by rw [ha x hx]; exact Bool.false_ne_true, he,
        List.eraseP_cons_of_pos (ht oldest (he ▸ List.mem_cons_self))]
    have hrest : ∀ x ∈ rest, x.waitingText = true := fun x hx => ht x (he ▸ List.mem_cons_of_mem _ hx)
    have room : (ahead ++ rest).length < Config.outboxCapacity := by
      rw [he, List.length_append, List.length_cons] at hlen
      rw [List.length_append, cap]
      omega
    have shrunk : (if (ahead ++ texts).length < Config.outboxCapacity then ahead ++ texts
        else (ahead ++ texts).eraseP Item.waitingText) = ahead ++ rest :=
      (if_neg (by rw [hlen, cap]; decide)).trans gone
    unfold placeAnswer
    dsimp only
    rw [shrunk, if_pos room, (before rest hrest).1, (before rest hrest).2]

/-- The terminal admits an ANSWER (R52). -/
theorem admitsAnswer_iff {x : TermIx} {tag : Byte} : s.admitsAnswer x tag = true
    ↔ s.termConfigured x = true ∧ (s.terminal x).request = some tag
      ∧ ∀ i ∈ (s.terminal x).outbox, ∀ b, i.body = .answer b false → b.reqTag ≠ tag := by
  have answers : ∀ i : Item, i.answers tag = true ↔ ∃ b, i.body = .answer b false ∧ b.reqTag = tag := fun i => by
    unfold Item.answers
    cases hb : i.body with
    | text => simp
    | answer a busy => cases busy <;> simp
  simp only [State.admitsAnswer, Bool.and_eq_true, beq_iff_eq, Bool.not_eq_true', and_assoc]
  rw [← Bool.not_eq_true, List.any_eq_true]
  simp only [answers, not_exists, not_and]

/-! ## SHOW TEXT -/

theorem processShowText_of_no_terminal {addr : Byte} {text : List Byte}
    (h : ∀ x, termOf addr = some x → s.termConfigured x = false) :
    processShowText addr text s = refuse .notFound s := by
  unfold processShowText
  cases hx : termOf addr with
  | none => rfl
  | some x => exact if_pos (by rw [h x hx]; rfl)

/-- SHOW TEXT at a configured terminal (R57). -/
theorem processShowText_eq {addr : Byte} {text : List Byte} {x : TermIx} (hx : termOf addr = some x)
    (hc : s.termConfigured x = true) :
    processShowText addr text s
      = if 32 < text.length ∨ ∃ b ∈ text, textSymbol b = none then refuse .badValue s
        else if (s.terminal x).bus.presence = .lost then refuse .refusedState s
        else if 4 ≤ (s.terminal x).outbox.length then refuse .full s
        else accept [] (s.setTerm x fun v => { v with outbox := v.outbox ++ [{ body := .text text, tag := none }] }) := by
  unfold processShowText
  rw [hx]
  dsimp only
  rw [if_neg (by rw [hc]; exact Bool.false_ne_true)]
  have tests : (decide (Config.maxText < text.length) || text.any fun b => (textSymbol b).isNone) = true
      ↔ 32 < text.length ∨ ∃ b ∈ text, textSymbol b = none := by
    rw [Bool.or_eq_true, decide_eq_true_iff, List.any_eq_true]
    simp only [Option.isNone_iff_eq_none]
    rfl
  by_cases hbad : 32 < text.length ∨ ∃ b ∈ text, textSymbol b = none
  · rw [if_pos hbad, if_pos (tests.mpr hbad)]
  · rw [if_neg hbad, if_neg fun h => hbad (tests.mp h)]
    rfl

/-- Settles O20. -/
theorem showTextQueuesText : Obligations.ShowTextQueuesText := by
  unfold Obligations.ShowTextQueuesText
  refine ⟨fun tag addr text s h => ⟨fun hnone => ?_, fun t ht hc => ?_⟩, fun i ahead texts => ?_,
    fun s t a => ⟨fun hopen => ?_, fun hshut => ?_, fun reqTag reason id => rfl⟩⟩
  · exact request_refused (r := .showText addr text) h (processShowText_of_no_terminal hnone)
  · have verdict := processShowText_eq (s := s.heard (.showText addr text) tag) (text := text) ht hc
    refine ⟨fun hbad => ?_, fun hlen hsym => ?_⟩
    · exact request_refused (r := .showText addr text) h (verdict.trans (if_pos hbad))
    · have good : ¬ (32 < text.length ∨ ∃ b ∈ text, textSymbol b = none) := by
        rintro (hlt | ⟨b, hb, hn⟩)
        · omega
        · exact hsym b hb hn
      rw [if_neg good] at verdict
      refine ⟨fun hlost => ?_, fun hheard hfull => ?_, fun hheard hroom => ?_⟩
      · exact request_refused (r := .showText addr text) h (verdict.trans (if_pos hlost))
      · exact request_refused (r := .showText addr text) h (verdict.trans ((if_neg hheard).trans (if_pos hfull)))
      · exact request_accepted (r := .showText addr text) h
          (verdict.trans ((if_neg hheard).trans (if_neg (Nat.not_le.mpr hroom)))) rfl
  · dsimp only
    intro ha ht
    exact placeAnswer_spec i (fun x hx => Bool.eq_false_iff.mpr (mt (waitingText_iff x).mp (ha x hx)))
      fun x hx => (waitingText_iff x).mpr (ht x hx)
  · rw [sendAnswer, if_pos (admitsAnswer_iff.mpr hopen)]
    rfl
  · rw [sendAnswer, if_neg fun h => hshut (admitsAnswer_iff.mp h)]

end Sys2Proof.Machine
end

section
/-! The price table and the band table (R81 to R86). -/

namespace Sys2Proof.Machine

variable {s t : State}

/-! ## Prices -/

/-- A lookup after the entries with a key are dropped. -/
theorem findPrice_filter (c : MachineClass) (k : Nat) (es : List PriceEntry) (d : MachineClass) (j : Nat) :
    findPrice d j (es.filter fun e => !e.hasKey c k) = if (d, j) = (c, k) then none else findPrice d j es := by
  unfold findPrice
  rw [List.find?_filter]
  split
  · next h =>
    obtain ⟨rfl, rfl⟩ := Prod.mk.inj h
    rw [List.find?_eq_none]
    intro e _
    simp
  · next h =>
    refine congrArg (List.find? · es) (funext fun e => ?_)
    cases hk : e.hasKey d j with
    | false => simp
    | true =>
      obtain ⟨hc, hp⟩ := (PriceEntry.hasKey_iff ..).mp hk
      have : e.hasKey c k = false := by
        refine Bool.eq_false_iff.mpr fun he => h ?_
        obtain ⟨hc', hp'⟩ := (PriceEntry.hasKey_iff ..).mp he
        rw [← hc, ← hp, hc', hp']
      simp [this]

theorem processLoadPrice_eq {cls program : Byte} {base ph pc : BitVec 16} {n : Byte} {pairs : List (Byte × BitVec 16)}
    {e : PriceEntry} (he : priceEntry cls program base ph pc n pairs = some e) (s : State) :
    processLoadPrice cls program base ph pc n pairs s
      = if findPrice e.cls e.program s.ret.prices = none ∧ 32 ≤ s.ret.prices.length then refuse .full s
        else accept [] (s.write fun r => { r with prices := putPrice e r.prices }) := by
  unfold processLoadPrice
  rw [he]
  dsimp only
  by_cases h : findPrice e.cls e.program s.ret.prices = none ∧ 32 ≤ s.ret.prices.length
  · rw [if_pos h, if_pos (by simp [h.1, h.2, Config.priceCapacity])]
  · rw [if_neg h, if_neg fun hh => h ?_]
    rw [Bool.and_eq_true, decide_eq_true_iff, Option.isNone_iff_eq_none] at hh
    exact hh

theorem processRemovePrice_eq {cls program : Byte} {c : MachineClass} (hc : MachineClass.ofCode cls = some c)
    (hp : 1 ≤ program.toNat ∧ program.toNat ≤ 15) (s : State) :
    processRemovePrice cls program s
      = if findPrice c program.toNat s.ret.prices = none then refuse .notFound s
        else accept [] (s.write fun r => { r with prices := r.prices.filter fun e => !e.hasKey c program.toNat }) := by
  unfold processRemovePrice
  rw [hc]
  dsimp only
  rw [if_pos hp]
  simp only [Option.isNone_iff_eq_none]

/-- Settles O21. -/
theorem pricesLoadedAndRemoved : Obligations.PricesLoadedAndRemoved := by
  unfold Obligations.PricesLoadedAndRemoved
  refine fun tag cls program s h => ⟨fun base ph pc n pairs => ⟨fun hnone => ?_, fun e he => ?_⟩, fun hbad => ?_,
    fun c hc h1 h15 => ?_⟩
  · refine request_refused (r := .loadPrice cls program base ph pc n pairs) h ?_
    rw [process, processLoadPrice, hnone]
  · have verdict := processLoadPrice_eq he (s.heard (.loadPrice cls program base ph pc n pairs) tag)
    refine ⟨fun hnone hfull => ?_, fun hroom => ⟨putPrice e s.ret.prices, ?_, ?_, fun c k hne => ?_⟩⟩
    · exact request_refused (r := .loadPrice cls program base ph pc n pairs) h
        (verdict.trans (if_pos ⟨hnone, hfull⟩))
    · refine request_accepted (r := .loadPrice cls program base ph pc n pairs) h (verdict.trans (if_neg ?_)) rfl
      rintro ⟨hnone, hfull⟩
      exact hroom.elim (fun h => h hnone) fun h => Nat.not_le.mpr h hfull
    · rw [findPrice_putPrice, if_pos ⟨rfl, rfl⟩]
    · rw [findPrice_putPrice, if_neg fun hk => hne (by rw [hk.1, hk.2])]
  · refine request_refused (r := .removePrice cls program) h ?_
    rw [process, processRemovePrice]
    cases hc : MachineClass.ofCode cls with
    | none => rfl
    | some c =>
      rw [hc] at hbad
      refine if_neg fun ⟨h1, h15⟩ => ?_
      rcases hbad with hbad | hbad | hbad
      · exact nomatch hbad
      · rw [hbad] at h1
        exact Nat.not_succ_le_zero 0 h1
      · exact Nat.not_lt.mpr h15 hbad
  · have verdict := processRemovePrice_eq hc ⟨h1, h15⟩ (s.heard (.removePrice cls program) tag)
    refine ⟨fun hnone => ?_, fun hsome => ⟨s.ret.prices.filter fun e => !e.hasKey c program.toNat, ?_, ?_,
      fun d k hne => ?_⟩⟩
    · exact request_refused (r := .removePrice cls program) h (verdict.trans (if_pos hnone))
    · exact request_accepted (r := .removePrice cls program) h (verdict.trans (if_neg hsome)) rfl
    · rw [findPrice_filter, if_pos rfl]
    · rw [findPrice_filter, if_neg hne]

/-! ## Bands -/

/-- The tests of LOAD BANDS on one band (R85). -/
def BandOk (b : BitVec 16 × Byte × Byte) : Prop :=
  b.1.toNat ≤ 10079 ∧ 50 ≤ b.2.1.toNat ∧ b.2.1.toNat ≤ 250 ∧ b.2.2.toNat ≤ 1

/-- The band that LOAD BANDS stores. -/
def storedBand (b : BitVec 16 × Byte × Byte) : Band :=
  { start := b.1.toNat, multiplier := b.2.1.toNat, closed := b.2.2 == 1#8 }

theorem readBand_of_ok {b : BitVec 16 × Byte × Byte} (h : BandOk b) : readBand b = some (storedBand b) := by
  obtain ⟨h1, h2, h3, h4⟩ := h
  unfold readBand
  rw [flagOfCode_of_le h4]
  dsimp only
  rw [if_pos ⟨Nat.lt_succ_of_le h1, h2, h3⟩]
  rfl

theorem readBand_of_not_ok {b : BitVec 16 × Byte × Byte} (h : ¬ BandOk b) : readBand b = none := by
  unfold readBand
  by_cases h4 : b.2.2.toNat ≤ 1
  · rw [flagOfCode_of_le h4]
    dsimp only
    exact if_neg fun ⟨h1, h2, h3⟩ => h ⟨Nat.le_of_lt_succ h1, h2, h3, h4⟩
  · rw [flagOfCode_of_gt (Nat.lt_of_not_le h4)]

theorem readBands_of_ok {bands : List (BitVec 16 × Byte × Byte)} (h : ∀ b ∈ bands, BandOk b) :
    readBands bands = some (bands.map storedBand) := by
  induction bands with
  | nil => rfl
  | cons b rest ih =>
    obtain ⟨hb, hrest⟩ := List.forall_mem_cons.mp h
    rw [readBands, readBand_of_ok hb, ih hrest]
    rfl

theorem readBands_of_not_ok {bands : List (BitVec 16 × Byte × Byte)} {b : BitVec 16 × Byte × Byte} (hb : b ∈ bands)
    (h : ¬ BandOk b) : readBands bands = none := by
  induction bands with
  | nil => exact nomatch hb
  | cons x rest ih =>
    rw [readBands]
    rcases List.mem_cons.mp hb with rfl | hb
    · rw [readBand_of_not_ok h]
    · rw [ih hb]
      cases readBand x <;> rfl

theorem startsRise_iff (bs : List Band) : startsRise bs = true ↔ (bs.map (·.start)).Pairwise (· < ·) := by
  rw [← List.isChain_iff_pairwise]
  induction bs with
  | nil => simp [startsRise]
  | cons a rest ih =>
    cases rest with
    | nil => simp [startsRise]
    | cons b rest =>
      rw [startsRise, Bool.and_eq_true, ih, decide_eq_true_iff]
      simp only [List.map_cons, List.isChain_cons_cons]

theorem rising_map_storedBand (bands : List (BitVec 16 × Byte × Byte)) :
    startsRise (bands.map storedBand) = true ↔ bands.Pairwise fun a b => a.1.toNat < b.1.toNat := by
  rw [startsRise_iff, List.map_map, List.pairwise_map]
  rfl

/-- The last of the bands with the greatest start. -/
theorem foldl_laterBand (xs : List Band) : ∀ (acc : Option Band) (b : Band), xs.foldl laterBand acc = some b →
    (b ∈ xs ∨ acc = some b) ∧ (∀ x ∈ xs, x.start ≤ b.start) ∧ ∀ y, acc = some y → y.start ≤ b.start := by
  induction xs with
  | nil => exact fun acc b h => ⟨.inr h, nofun, fun y hy => by
      rw [List.foldl_nil, hy] at h; cases h; exact Nat.le_refl _⟩
  | cons x xs ih =>
    intro acc b h
    obtain ⟨hmem, hall, hacc⟩ := ih _ b h
    have hle : ∀ z, laterBand acc x = some z → x.start ≤ z.start ∧ ∀ y, acc = some y → y.start ≤ z.start := by
      intro z hz
      unfold laterBand at hz
      cases acc with
      | none => cases hz; exact ⟨Nat.le_refl _, nofun⟩
      | some y =>
        dsimp only at hz
        split at hz
        · next hyx => cases hz; exact ⟨Nat.le_refl _, fun _ hy => by cases hy; exact hyx⟩
        · next hyx => cases hz; exact ⟨(Nat.lt_of_not_le hyx).le, fun _ hy => by cases hy; exact Nat.le_refl _⟩
    have hsome : ∃ z, laterBand acc x = some z ∧ (z = x ∨ acc = some z) := by
      unfold laterBand
      cases acc with
      | none => exact ⟨x, rfl, .inl rfl⟩
      | some y =>
        dsimp only
        split
        · exact ⟨x, rfl, .inl rfl⟩
        · exact ⟨y, rfl, .inr rfl⟩
    obtain ⟨z, hz, horigin⟩ := hsome
    obtain ⟨hxz, hyz⟩ := hle z hz
    have hzb := hacc z hz
    refine ⟨?_, fun w hw => ?_, fun y hy => (hyz y hy).trans hzb⟩
    · rcases hmem with hmem | hmem
      · exact .inl (List.mem_cons_of_mem _ hmem)
      · rw [hz] at hmem
        cases hmem
        rcases horigin with rfl | horigin
        · exact .inl List.mem_cons_self
        · exact .inr horigin
    · rcases List.mem_cons.mp hw with rfl | hw
      · exact hxz.trans hzb
      · exact hall w hw

theorem foldl_laterBand_eq_none {xs : List Band} (h : xs.foldl laterBand none = none) : xs = [] := by
  have keep : ∀ (xs : List Band) (y : Band), xs.foldl laterBand (some y) ≠ none := by
    intro xs
    induction xs with
    | nil => exact fun y h => nomatch h
    | cons x xs ih =>
      intro y
      rw [List.foldl_cons, laterBand]
      split
      · exact ih x
      · exact ih y
  cases xs with
  | nil => rfl
  | cons x xs => exact absurd h (keep xs x)

/-- The band in force: that with the greatest start not above the minute, else the last of the table (R86). -/
theorem bandInForce_spec {bands : List Band} (hne : bands ≠ []) (minute : Nat) :
    ∃ b ∈ bands, bandInForce bands minute = some b
      ∧ ((b.start ≤ minute ∧ ∀ x ∈ bands, x.start ≤ minute → x.start ≤ b.start)
        ∨ ((∀ x ∈ bands, minute < x.start) ∧ bands.getLast? = some b)) := by
  unfold bandInForce
  cases hf : (bands.filter fun b => b.start ≤ minute).foldl laterBand none with
  | some b =>
    obtain ⟨hmem, hall, -⟩ := foldl_laterBand _ _ _ hf
    obtain ⟨hb, hle⟩ := List.mem_filter.mp (hmem.resolve_right nofun)
    exact ⟨b, hb, rfl, .inl ⟨by simpa using hle, fun x hx hxm => hall x (List.mem_filter.mpr ⟨hx, by simpa using hxm⟩)⟩⟩
  | none =>
    have hnone := List.filter_eq_nil_iff.mp (foldl_laterBand_eq_none hf)
    refine ⟨bands.getLast hne, List.getLast_mem hne, List.getLast?_eq_some_getLast hne,
      .inr ⟨fun x hx => by simpa using hnone x hx, List.getLast?_eq_some_getLast hne⟩⟩

/-- Settles O22. -/
theorem loadBandsReplacesTable : Obligations.LoadBandsReplacesTable := by
  unfold Obligations.LoadBandsReplacesTable
  refine ⟨fun tag bands s h => ⟨fun hbad => ?_, fun ⟨hlen, hok, hrise⟩ => ?_⟩, fun s => ⟨fun hc => ?_, fun hc hb => ?_,
    fun hc b hb hin => ?_, fun hc hne => ?_⟩⟩
  · refine request_refused (r := .loadBands bands) h ?_
    rw [process, processLoadBands]
    by_cases hok : ∀ b ∈ bands, BandOk b
    · rw [readBands_of_ok hok]
      refine if_neg fun hgood => hbad ?_
      rw [Bool.and_eq_true, decide_eq_true_iff, List.length_map, rising_map_storedBand] at hgood
      exact ⟨hgood.1, hok, hgood.2⟩
    · push Not at hok
      obtain ⟨b, hb, hnot⟩ := hok
      rw [readBands_of_not_ok hb hnot]
  · refine request_accepted (r := .loadBands bands)
      (t := (s.heard (.loadBands bands) tag).write fun r => { r with bands := bands.map storedBand }) h ?_ rfl
    rw [process, processLoadBands, readBands_of_ok hok]
    refine if_pos ?_
    rw [Bool.and_eq_true, decide_eq_true_iff, List.length_map, rising_map_storedBand]
    exact ⟨hlen, hrise⟩
  · simp [State.bandReading, State.minuteNow, hc]
  · simp [State.bandReading, State.minuteNow, hc, hb, bandInForce]
  · obtain ⟨x, hx, hforce, hcase⟩ := bandInForce_spec (List.ne_nil_of_mem hb) s.clock.minute
    have hxb : x = b := by
      rcases hin with ⟨hle, hmax⟩ | ⟨hall, hlast⟩ <;> rcases hcase with ⟨hxle, hxmax⟩ | ⟨hxall, hxlast⟩
      · by_contra hne
        exact absurd (hxmax b hb hle) (Nat.not_le.mpr (hmax x hx hne hxle))
      · exact absurd (hxall b hb) (Nat.not_lt.mpr hle)
      · exact absurd (hall x hx) (Nat.not_lt.mpr hxle)
      · exact Option.some.inj (hxlast.symm.trans hlast)
    subst hxb
    simp [State.bandReading, State.minuteNow, hc, hforce]
  · obtain ⟨x, hx, hforce, hcase⟩ := bandInForce_spec hne s.clock.minute
    exact ⟨x, hx, by simp [State.bandReading, State.minuteNow, hc, hforce], hcase⟩

end Sys2Proof.Machine
end

section
/-! The requests of the card table (R71 to R77). -/

namespace Sys2Proof.Machine

variable {s t : State}

/-! ## Numbers in bytes -/

theorem extract_byte {w : Nat} (x : BitVec w) (k : Nat) :
    x.extractLsb' (8 * k) 8 = BitVec.ofNat 8 (x.toNat / 256 ^ k) := by
  apply BitVec.eq_of_toNat_eq
  rw [BitVec.extractLsb'_toNat, BitVec.toNat_ofNat, Nat.shiftRight_eq_div_pow, Nat.pow_mul]

theorem num3_eq (n : Nat) : num3 n = [BitVec.ofNat 8 (n / 65536), BitVec.ofNat 8 (n / 256), BitVec.ofNat 8 n] := by
  have high := extract_byte (BitVec.ofNat 24 n) 2
  have middle := extract_byte (BitVec.ofNat 24 n) 1
  have low := extract_byte (BitVec.ofNat 24 n) 0
  have bytes : ∀ m, (n % 2 ^ 24 / m) % 256 = (n / m) % 256 →
      BitVec.ofNat 8 ((BitVec.ofNat 24 n).toNat / m) = BitVec.ofNat 8 (n / m) := by
    intro m hm
    apply BitVec.eq_of_toNat_eq
    simpa using hm
  rw [bytes _ (by omega)] at high middle low
  rw [num3, word24, high, middle, low]
  simp

theorem idBytes_eq (id : CardId) :
    idBytes id = (List.range 8).map fun i => BitVec.ofNat 8 (id.toNat / 256 ^ (7 - i)) := by
  simp only [← extract_byte]
  rfl

/-! ## Fields -/

theorem CardClass.ofCode_eq_none {b : Byte} : CardClass.ofCode b = none ↔ 2 < b.toNat := by
  revert b; decide +kernel

/-- A daily limit out of its range (R71, R74). -/
theorem limitOk_eq_false {limit : BitVec 16} :
    limitOk (optional16 limit) = false ↔ limit ≠ 0xFFFF#16 ∧ (limit.toNat = 0 ∨ 50000 < limit.toNat) := by
  unfold optional16
  by_cases h : limit = 0xFFFF#16
  · simp [h, limitOk]
  · rw [if_neg h, limitOk, Bool.and_eq_false_iff, decide_eq_false_iff_not, decide_eq_false_iff_not]
    simp only [Config.maxDailyLimit, ne_eq, h, not_false_eq_true, true_and]
    omega

/-! ## A journalled change of the card table -/

/-- A request that changes the card table alone, through the journal, is answered OK. -/
theorem request_changes_cards {r : Request} {tag : Byte} {part : CardPart} (h : LinkReady s)
    (hv : process r (s.heard r tag)
      = accept [] (journalled { card := part, settlement := none, session := .absent } (s.heard r tag))) :
    ∃ t, request r tag s = .next t
      ∧ CardsChanged s t { type := Request.type r, tag := tag, status := .ok, payload := [] }
      ∧ t.ret.cards = part.cards s.ret.cards := by
  rw [journalled_eq, applyEntry_eq] at hv
  exact ⟨_, request_accepted h hv rfl, rfl, rfl⟩

/-- The same for a record that is put: its own id has it, and every other id what it had. -/
theorem request_puts_card {r : Request} {tag : Byte} {c : Card} {id : CardId} (h : LinkReady s) (hid : c.id = id)
    (hv : process r (s.heard r tag) = accept [] (journalCard c (s.heard r tag))) :
    ∃ t, request r tag s = .next t
      ∧ CardsChanged s t { type := Request.type r, tag := tag, status := .ok, payload := [] }
      ∧ t.card id = some c ∧ ∀ j, j ≠ id → t.card j = s.card j := by
  subst hid
  obtain ⟨t, hrun, hchanged, hcards⟩ := request_changes_cards h hv
  have cards : ∀ j, t.card j = if c.id = j then some c else s.card j := fun j => by
    rw [State.card, hcards, CardPart.cards, find_putCard]
    rfl
  exact ⟨t, hrun, hchanged, by rw [cards, if_pos rfl], fun j hj => by rw [cards, if_neg (Ne.symm hj)]⟩

theorem card_id {id : CardId} {c : Card} (h : s.card id = some c) : c.id = id := (mem_of_card h).2

/-! ## ADD CARD -/

/-- The new record of ADD CARD (R71). -/
def newCard (id : CardId) (k : CardClass) (balance : BitVec 24) (discount : Byte) (limit : BitVec 16) : Card :=
  { id := id, cls := k, state := .active, balance := balance.toNat, held := 0, discount := discount.toNat,
    limit := optional16 limit, spent := 0 }

theorem processAddCard_eq {cls : Byte} {k : CardClass} (hk : CardClass.ofCode cls = some k) (id : CardId)
    (balance : BitVec 24) (discount : Byte) (limit : BitVec 16) (s : State) :
    processAddCard id cls balance discount limit s
      = if id = 0#64 ∨ 500000 < balance.toNat ∨ 90 < discount.toNat
            ∨ limit ≠ 0xFFFF#16 ∧ (limit.toNat = 0 ∨ 50000 < limit.toNat) then refuse .badValue s
        else if (s.card id).isSome then refuse .duplicate s
        else if 512 ≤ s.ret.cards.length then refuse .full s
        else accept [] (journalCard (newCard id k balance discount limit) s) := by
  unfold processAddCard
  rw [hk]
  simp only [limitOk_eq_false]
  rfl

/-- Settles O23. -/
theorem addCardMakesRecord : Obligations.AddCardMakesRecord := by
  unfold Obligations.AddCardMakesRecord
  intro tag id cls balance discount limit s h bad
  cases hk : CardClass.ofCode cls with
  | none =>
    have hbad : bad := .inr (.inl (CardClass.ofCode_eq_none.mp hk))
    refine ⟨fun _ => ?_, fun hnot => absurd hbad hnot, fun hnot => absurd hbad hnot, fun hnot => absurd hbad hnot⟩
    refine request_refused (r := .addCard id cls balance discount limit) h ?_
    rw [process, processAddCard, hk]
  | some k =>
    have hcls : ¬ 2 < cls.toNat := fun hlt => by rw [CardClass.ofCode_eq_none.mpr hlt] at hk; exact nomatch hk
    have verdict := processAddCard_eq hk id balance discount limit (s.heard (.addCard id cls balance discount limit) tag)
    have same : bad ↔ id = 0#64 ∨ 500000 < balance.toNat ∨ 90 < discount.toNat
        ∨ limit ≠ 0xFFFF#16 ∧ (limit.toNat = 0 ∨ 50000 < limit.toNat) :=
      or_congr_right ⟨fun hb => hb.resolve_left hcls, .inr⟩
    simp only [same]
    have unknown : s.card id = none → ¬ (s.card id).isSome = true := fun hnew => by simp [hnew]
    refine ⟨fun hbad => ?_, fun hbad hdup => ?_, fun hbad hnew hfull => ?_, fun hbad hnew hroom => ?_⟩
    · exact request_refused (r := .addCard id cls balance discount limit) h (verdict.trans (if_pos hbad))
    · exact request_refused (r := .addCard id cls balance discount limit) h
        ((verdict.trans (if_neg hbad)).trans (if_pos hdup))
    · exact request_refused (r := .addCard id cls balance discount limit) h
        (((verdict.trans (if_neg hbad)).trans (if_neg (unknown hnew))).trans (if_pos hfull))
    · obtain ⟨t, hrun, hchanged, hown, hothers⟩ :=
        request_puts_card (r := .addCard id cls balance discount limit) (tag := tag) h rfl
          (((verdict.trans (if_neg hbad)).trans (if_neg (unknown hnew))).trans (if_neg (Nat.not_le.mpr hroom)))
      exact ⟨t, k, hrun, hchanged, rfl, hown, hothers⟩

/-! ## The requests on a known card -/

theorem processCreditCard_eq {id : CardId} {c : Card} (hc : s.card id = some c) (amount : BitVec 24) :
    processCreditCard id amount s
      = if amount.toNat = 0 ∨ 500000 < amount.toNat ∨ 500000 < c.balance + amount.toNat then refuse .badValue s
        else accept [] (journalCard { c with balance := c.balance + amount.toNat } s) := by
  unfold processCreditCard
  rw [hc]
  rfl

theorem processDebitCard_eq {id : CardId} {c : Card} (hc : s.card id = some c) (amount : BitVec 24) :
    processDebitCard id amount s
      = if amount.toNat = 0 ∨ 500000 < amount.toNat ∨ c.balance < amount.toNat then refuse .badValue s
        else if c.balance - amount.toNat < c.held then refuse .inUse s
        else accept [] (journalCard { c with balance := c.balance - amount.toNat } s) := by
  unfold processDebitCard
  rw [hc]
  rfl

/-- Settles O24. -/
theorem creditAndDebitCard : Obligations.CreditAndDebitCard := by
  unfold Obligations.CreditAndDebitCard
  refine ⟨fun tag id amount s h => ⟨fun hnone => ?_, fun c hc => ?_⟩,
    fun tag id amount s h => ⟨fun hnone => ?_, fun c hc => ?_⟩⟩
  · refine request_refused (r := .creditCard id amount) h ?_
    rw [process, processCreditCard, show (s.heard (.creditCard id amount) tag).card id = none from hnone]
  · have verdict := processCreditCard_eq (s := s.heard (.creditCard id amount) tag) hc amount
    refine ⟨fun hbad => request_refused (r := .creditCard id amount) h (verdict.trans (if_pos hbad)),
      fun h1 h2 h3 => ?_⟩
    exact request_puts_card (r := .creditCard id amount) h (card_id hc : c.id = id)
      (verdict.trans (if_neg (by omega)))
  · refine request_refused (r := .debitCard id amount) h ?_
    rw [process, processDebitCard, show (s.heard (.debitCard id amount) tag).card id = none from hnone]
  · have verdict := processDebitCard_eq (s := s.heard (.debitCard id amount) tag) hc amount
    refine ⟨fun hbad => request_refused (r := .debitCard id amount) h (verdict.trans (if_pos hbad)),
      fun h1 h2 h3 h4 => request_refused (r := .debitCard id amount) h
        ((verdict.trans (if_neg (by omega))).trans (if_pos (by omega))), fun h1 h2 h3 => ?_⟩
    exact request_puts_card (r := .debitCard id amount) h (card_id hc : c.id = id)
      ((verdict.trans (if_neg (by omega))).trans (if_neg (by omega)))

theorem processSetCard_eq {id : CardId} {c : Card} (hc : s.card id = some c) {cls : Byte} {k : CardClass}
    (hk : CardClass.ofCode cls = some k) (discount : Byte) (limit : BitVec 16) :
    processSetCard id cls discount limit s
      = if 90 < discount.toNat ∨ limit ≠ 0xFFFF#16 ∧ (limit.toNat = 0 ∨ 50000 < limit.toNat) then refuse .badValue s
        else accept [] (journalCard { c with cls := k, discount := discount.toNat, limit := optional16 limit } s) := by
  unfold processSetCard
  rw [hc]
  dsimp only
  rw [hk]
  simp only [limitOk_eq_false]
  rfl

theorem processCardState_eq {id : CardId} {c : Card} (hc : s.card id = some c) (st : CardState) :
    processCardState id st s = accept [] (journalCard { c with state := st } s) := by
  rw [processCardState, hc]

theorem processRemoveCard_eq {id : CardId} {c : Card} (hc : s.card id = some c) :
    processRemoveCard id s
      = if 0 < c.held then refuse .inUse s
        else accept [] (journalled { card := .removal id, settlement := none, session := .absent } s) := by
  rw [processRemoveCard, hc]

/-- SET CARD at a known card (R74). -/
theorem setCard_known {tag : Byte} {id : CardId} {cls discount : Byte} {limit : BitVec 16} (h : LinkReady s) {c : Card}
    (hc : s.card id = some c) :
    let bad := 2 < cls.toNat ∨ 90 < discount.toNat ∨ (limit ≠ 0xFFFF#16 ∧ (limit.toNat = 0 ∨ 50000 < limit.toNat))
    (bad → exec (.setCard tag id cls discount limit) s = .next (s.refusedWith 0x33#8 tag .badValue))
    ∧ (¬ bad → ∃ t k, exec (.setCard tag id cls discount limit) s = .next t
      ∧ CardsChanged s t { type := 0x33#8, tag := tag, status := .ok, payload := [] }
      ∧ CardClass.ofCode cls = some k
      ∧ t.card id = some { c with cls := k, discount := discount.toNat, limit := optional16 limit }
      ∧ ∀ j, j ≠ id → t.card j = s.card j) := by
  intro bad
  cases hk : CardClass.ofCode cls with
  | none =>
    have hbad : bad := .inl (CardClass.ofCode_eq_none.mp hk)
    refine ⟨fun _ => request_refused (r := .setCard id cls discount limit) h ?_, fun hnot => absurd hbad hnot⟩
    rw [process, processSetCard, show (s.heard (.setCard id cls discount limit) tag).card id = some c from hc]
    dsimp only
    rw [hk]
  | some k =>
    have hcls : ¬ 2 < cls.toNat := fun hlt => by rw [CardClass.ofCode_eq_none.mpr hlt] at hk; exact nomatch hk
    have verdict := processSetCard_eq (s := s.heard (.setCard id cls discount limit) tag) hc hk discount limit
    refine ⟨fun hbad => request_refused (r := .setCard id cls discount limit) h
      (verdict.trans (if_pos (hbad.resolve_left hcls))), fun hbad => ?_⟩
    obtain ⟨t, hrun, hchanged, hown, hothers⟩ := request_puts_card (r := .setCard id cls discount limit) (tag := tag)
      (c := { c with cls := k, discount := discount.toNat, limit := optional16 limit }) h (card_id hc : c.id = id)
      (verdict.trans (if_neg fun hb => hbad (.inr hb)))
    exact ⟨t, k, hrun, hchanged, rfl, hown, hothers⟩

/-- Settles O25. -/
theorem cardRecordRequests : Obligations.CardRecordRequests := by
  unfold Obligations.CardRecordRequests
  refine ⟨fun tag id cls discount limit s h => ⟨fun hnone => ?_, fun c hc => setCard_known h hc⟩,
    fun tag id s h => ⟨fun hnone => ⟨?_, ?_⟩, fun c hc => ?_⟩,
    fun tag id s h => ⟨fun hnone => ⟨?_, ?_⟩, fun c hc => ⟨?_, fun hheld => ?_, fun hheld => ?_⟩⟩,
    fun n => ⟨rfl, num2_eq n, num3_eq n⟩, rfl, idBytes_eq⟩
  · refine request_refused (r := .setCard id cls discount limit) h ?_
    rw [process, processSetCard, show (s.heard (.setCard id cls discount limit) tag).card id = none from hnone]
  · refine request_refused (r := .blockCard id) h ?_
    rw [process, processCardState, show (s.heard (.blockCard id) tag).card id = none from hnone]
  · refine request_refused (r := .unblockCard id) h ?_
    rw [process, processCardState, show (s.heard (.unblockCard id) tag).card id = none from hnone]
  · exact ⟨request_puts_card (r := .blockCard id) h (card_id hc : c.id = id)
        (processCardState_eq (s := s.heard (.blockCard id) tag) hc .blocked),
      request_puts_card (r := .unblockCard id) h (card_id hc : c.id = id)
        (processCardState_eq (s := s.heard (.unblockCard id) tag) hc .active)⟩
  · refine request_refused (r := .readCard id) h ?_
    rw [process, processReadCard, show (s.heard (.readCard id) tag).card id = none from hnone]
  · refine request_refused (r := .removeCard id) h ?_
    rw [process, processRemoveCard, show (s.heard (.removeCard id) tag).card id = none from hnone]
  · refine (request_accepted (r := .readCard id) (payload := c.bytes) (t := s.heard (.readCard id) tag) h ?_ rfl).trans ?_
    · rw [process, processReadCard, show (s.heard (.readCard id) tag).card id = some c from hc]
    · rw [Card.bytes, card_id hc]
      rfl
  · exact request_refused (r := .removeCard id) h
      ((processRemoveCard_eq (s := s.heard (.removeCard id) tag) hc).trans (if_pos hheld))
  · obtain ⟨t, hrun, hchanged, hcards⟩ := request_changes_cards (r := .removeCard id) (tag := tag) h
      ((processRemoveCard_eq (s := s.heard (.removeCard id) tag) hc).trans (if_neg (by omega)))
    have cards : ∀ j, t.card j = if id = j then none else s.card j := fun j => by
      rw [State.card, hcards, CardPart.cards, find_dropCard]
      rfl
    exact ⟨t, hrun, hchanged, by rw [cards, if_pos rfl], fun j hj => by rw [cards, if_neg (Ne.symm hj)]⟩

end Sys2Proof.Machine
end

section
/-! The requests of the fault unit and of the settlement queue (R142, R153, R158, R164, R165), and the layout of their
records (R155, R159). -/

namespace Sys2Proof.Machine

variable {s t : State}

/-! ## LOAD FAULT CLASS -/

/-- The severity, policy and flag of LOAD FAULT CLASS out of their sets (R142). -/
theorem readFaultClass_eq_none {sev pol auto : Byte} :
    readFaultClass sev pol auto = none ↔ 2 < sev.toNat ∨ 2 < pol.toNat ∨ 1 < auto.toNat := by
  have severity : ∀ b : Byte, Severity.ofCode b = none ↔ 2 < b.toNat := by decide +kernel
  have policy : ∀ b : Byte, Policy.ofCode b = none ↔ 2 < b.toNat := by decide +kernel
  have flag : ∀ b : Byte, flagOfCode b = none ↔ 1 < b.toNat := by decide +kernel
  rw [← severity, ← policy, ← flag, readFaultClass]
  cases Severity.ofCode sev with
  | none => simp
  | some x =>
    cases Policy.ofCode pol with
    | none => simp
    | some y => cases flagOfCode auto <;> simp

/-- The classification that LOAD FAULT CLASS stores. -/
theorem readFaultClass_eq_some {sev pol auto : Byte} {c : FaultClass} (h : readFaultClass sev pol auto = some c) :
    c.severity.code = sev.toNat ∧ Policy.ofCode pol = some c.policy ∧ c.autoClear = (auto == 1#8) := by
  have severity : ∀ b : Byte, ∀ x, Severity.ofCode b = some x → x.code = b.toNat := by
    intro b x hx
    simp only [Severity.ofCode] at hx
    split_ifs at hx with h0 h1 h2 <;> cases hx <;> simp_all [Severity.code]
  have flag : ∀ b : Byte, ∀ x, flagOfCode b = some x → x = (b == 1#8) := by decide +kernel
  unfold readFaultClass at h
  split at h
  · next x y z hx hy hz =>
    cases h
    exact ⟨severity _ _ hx, hy, flag _ _ hz⟩
  · cases h

theorem classOf_set (c : FaultClass) {code : Nat} (h1 : 1 ≤ code) (h15 : code ≤ 15) (k : Nat)
    (hlt : code - 1 < 15) (hret : t.ret.classes = s.ret.classes.set (code - 1) c) :
    t.classOf k = if k = code then c else s.classOf k := by
  unfold State.classOf
  by_cases hk : 1 ≤ k ∧ k ≤ 15
  · rw [dif_pos hk, dif_pos hk]
    simp only [hret, Vector.getElem_set]
    by_cases hkc : k = code
    · rw [if_pos hkc, if_pos (by rw [hkc])]
    · rw [if_neg hkc, if_neg (by omega)]
  · rw [dif_neg hk, dif_neg hk, if_neg (by omega : ¬ k = code)]

/-! ## CLEAR FAULT -/

/-- The cause of an active fault is still seen (R153). -/
theorem causeSeen_iff {p : PosIx} {f : ActiveFault} :
    s.causeSeen p f = true
      ↔ ((1 ≤ f.code ∧ f.code ≤ 15) ∧ ∃ x, (s.vol p).lastState = some x ∧ x.fault = f.code)
        ∨ (f.code = 16 ∧ (s.vol p).bus.presence = .lost)
        ∨ (f.code = 17 ∧ ∃ x, (s.vol p).lastState = some x ∧ x.heaterOn = true)
        ∨ (f.code = 18 ∧ ∃ x c, (s.vol p).lastState = some x ∧ (s.record p).config = some c ∧ x.cls ≠ c.cls) := by
  unfold State.causeSeen
  dsimp only
  by_cases hcode : 1 ≤ f.code ∧ f.code ≤ 15
  · rw [if_pos hcode]
    have h16 : f.code ≠ 16 := by omega
    have h17 : f.code ≠ 17 := by omega
    have h18 : f.code ≠ 18 := by omega
    simp [hcode, h16, h17, h18, Option.any_eq_true]
  · rw [if_neg hcode]
    by_cases h16 : f.code = 16
    · simp [h16]
    · by_cases h17 : f.code = 17
      · simp [h17, Option.any_eq_true]
      · by_cases h18 : f.code = 18
        · simp [h18, Option.any_eq_true]
        · simp [hcode, h16, h17, h18]

/-- An active fault is cleared, and the display demand that falls is acted on (R27, R154). -/
theorem clearActive_eq {p : PosIx} {f : ActiveFault} (hf : (s.record p).fault = some f) :
    clearActive p s
      = (let v := s.vol p
         let q := queueDisplay .enable v.orders
         { s with
            trail := s.ret :: s.trail
            ret := { s.ret with positions := s.ret.positions.set p.val { s.record p with fault := none } }
            pos := s.pos.set p.val
              (if (s.record p).oos then { v with changed := true }
               else { v with orders := q.1, owed := q.2, changed := true }) }) := by
  have was : s.outOfOrder p = true := by simp [State.outOfOrder, hf]
  have now : (s.setRecord p fun r => { r with fault := none }).outOfOrder p = (s.record p).oos := by
    rw [State.outOfOrder, State.record_setRecord, if_pos rfl]
    exact Bool.or_false _
  unfold clearActive withDisplay
  dsimp only
  rw [was, now]
  by_cases hoos : (s.record p).oos = true
  · rw [if_neg (by rw [hoos]; decide), if_pos hoos]
    rfl
  · rw [if_neg hoos, if_pos (by rw [Bool.eq_false_iff.mpr hoos]; decide), askDisplay_eq, now,
      if_neg hoos, State.markChanged, setVol_setVol]
    rfl

/-- Settles O28. -/
theorem faultClassLoadedAndFaultCleared : Obligations.FaultClassLoadedAndFaultCleared := by
  unfold Obligations.FaultClassLoadedAndFaultCleared
  refine ⟨fun tag code sev pol auto s h => ⟨fun hbad => ?_, fun h1 h15 hsev hpol hauto => ?_⟩,
    fun tag addr s h => ⟨fun hbad => ?_, fun p f hp hc hf => ?_⟩⟩
  · refine request_refused (r := .loadFaultClass code sev pol auto) h ?_
    rw [process, processLoadFaultClass]
    cases hread : readFaultClass sev pol auto with
    | none => rfl
    | some c =>
      have hcodes : ¬ (2 < sev.toNat ∨ 2 < pol.toNat ∨ 1 < auto.toNat) := fun hb => by
        rw [readFaultClass_eq_none.mpr hb] at hread
        exact nomatch hread
      exact dif_neg (by omega)
  · obtain ⟨c, hread⟩ : ∃ c, readFaultClass sev pol auto = some c :=
      Option.ne_none_iff_exists'.mp fun hnone => by have := readFaultClass_eq_none.mp hnone; omega
    have hlt : code.toNat - 1 < 15 := by omega
    obtain ⟨hseverity, hpolicy, hflag⟩ := readFaultClass_eq_some hread
    have class_eq : ∀ (t : State), t.ret.classes = s.ret.classes.set (code.toNat - 1) c → ∀ k,
        t.classOf k = if k = code.toNat then c else s.classOf k := fun t ht k => classOf_set c h1 h15 k hlt ht
    refine ⟨_, s.ret.classes.set (code.toNat - 1) c, request_accepted (r := .loadFaultClass code sev pol auto)
      (t := (s.heard (.loadFaultClass code sev pol auto) tag).write fun r =>
        { r with classes := r.classes.set (code.toNat - 1) c }) h ?_ rfl, rfl, ?_⟩
    · rw [process, processLoadFaultClass, hread]
      exact dif_pos ⟨h1, h15⟩
    · rw [class_eq _ rfl, if_pos rfl]
      exact ⟨hseverity, hpolicy, hflag, fun k hk => by rw [class_eq _ rfl, if_neg hk]⟩
  · refine request_refused (r := .clearFault addr) h ?_
    rw [process, processClearFault]
    cases hp : posOf addr with
    | none => rfl
    | some p =>
      dsimp only
      cases hf : ((s.heard (.clearFault addr) tag).record p).fault with
      | none => rfl
      | some f =>
        have hc : State.configured (s.heard (.clearFault addr) tag) p = false :=
          (hbad p hp).resolve_right (by rw [show (s.record p).fault = some f from hf]; exact nofun)
        exact if_pos (by rw [hc]; rfl)
  · have known : process (.clearFault addr) (s.heard (.clearFault addr) tag)
        = if s.causeSeen p f then refuse .refusedState (s.heard (.clearFault addr) tag)
          else accept [] (clearActive p (s.heard (.clearFault addr) tag)) := by
      rw [process, processClearFault, hp]
      dsimp only
      rw [show ((s.heard (.clearFault addr) tag).record p).fault = some f from hf]
      dsimp only
      rw [show State.configured (s.heard (.clearFault addr) tag) p = true from hc]
      rfl
    refine ⟨fun hseen => ?_, fun hgone => ?_⟩
    · exact request_refused (r := .clearFault addr) h (known.trans (if_pos (causeSeen_iff.mpr hseen)))
    · have hclear := clearActive_eq (s := s.heard (.clearFault addr) tag) hf
      refine (request_accepted (r := .clearFault addr) h
        (known.trans (if_neg fun hseen => hgone (causeSeen_iff.mp hseen))) (by rw [hclear])).trans ?_
      rw [hclear]
      rfl

/-! ## READ FAULTS and READ SETTLEMENTS -/

/-- Settles O29. -/
theorem readFaultsAndSettlements : Obligations.ReadFaultsAndSettlements := by
  unfold Obligations.ReadFaultsAndSettlements
  have two : ∀ n : Option Nat, opt2 n
      = match n with
        | none => [0xFF#8, 0xFF#8]
        | some n => [BitVec.ofNat 8 (n / 256), BitVec.ofNat 8 n] := fun n => by
    cases n with
    | none => rfl
    | some n => exact num2_eq n
  have one : ∀ n : Option Nat, opt1 n
      = match n with
        | none => 0xFF#8
        | some n => BitVec.ofNat 8 n := fun n => by cases n <;> rfl
  refine ⟨fun tag s h => ⟨?_, ?_⟩, fun r => ⟨?_, ?_⟩, fun r => ⟨?_, ?_⟩⟩
  · exact (request_accepted (r := .readFaults) (t := (s.heard .readFaults tag).write fun r =>
      { r with faults := r.faults.drop 8, overflow := false }) h rfl rfl).trans rfl
  · exact (request_accepted (r := .readSettlements) (t := s.heard .readSettlements tag) h rfl rfl).trans rfl
  · simp only [FaultRecord.bytes, two, num2_eq]
    cases r.minute <;> cases r.settlement <;> rfl
  · rw [FaultRecord.bytes, two, two, one, num2_eq]
    cases r.severity <;> cases r.detail with
    | none => rfl
    | some k => cases k <;> rfl
  · simp only [Settlement.bytes, two, num2_eq, num3_eq, idBytes]
    cases r.startMinute <;> rfl
  · rw [Settlement.bytes, two, one, num2_eq, num3_eq, num3_eq, idBytes_eq]
    cases r.cclass <;> cases r.reason <;> rfl

/-! ## RELEASE THROUGH -/

theorem dropThrough_append {k : Nat} {before : List Settlement} {r : Settlement} (after : List Settlement)
    (hr : r.number = k) (hbefore : ∀ x ∈ before, x.number ≠ k) : dropThrough k (before ++ r :: after) = after := by
  induction before with
  | nil => exact if_pos hr
  | cons x xs ih =>
    obtain ⟨hx, hxs⟩ := List.forall_mem_cons.mp hbefore
    exact (if_neg hx).trans (ih hxs)

/-- Settles O30. -/
theorem releaseThroughRemovesPrefix : Obligations.ReleaseThroughRemovesPrefix := by
  unfold Obligations.ReleaseThroughRemovesPrefix
  refine fun tag k s h => ⟨fun hbad => ?_, fun h1 h2 => ⟨fun hnone => ?_, fun before r after hq hr hbefore => ?_⟩⟩
  · exact request_refused (r := .releaseThrough k) h (if_pos hbad)
  · refine request_refused (r := .releaseThrough k) h ?_
    rw [process, processReleaseThrough, if_neg (by simp only [Config.maxSettlementNumber]; omega), if_pos]
    exact List.all_eq_true.mpr fun r hr => by simpa using hnone r hr
  · refine (request_accepted (r := .releaseThrough k)
      (t := (s.heard (.releaseThrough k) tag).write fun r => { r with settlements := after })
      (payload := [num1 after.length])
      h ?_ rfl).trans rfl
    have hdrop : dropThrough k.toNat s.ret.settlements = after := hq ▸ dropThrough_append after hr hbefore
    rw [process, processReleaseThrough, if_neg (by simp only [Config.maxSettlementNumber]; omega), if_neg]
    · dsimp only [State.write]
      rw [show dropThrough k.toNat (s.heard (.releaseThrough k) tag).ret.settlements = after from hdrop]
    · intro hall
      have := List.all_eq_true.mp hall r (by rw [show (s.heard (.releaseThrough k) tag).ret.settlements = _ from hq]; simp)
      simp [hr] at this

end Sys2Proof.Machine
end

section
/-! The rows of the room bus line (R1, R4 to R10): what a visit's characters, its gap and its break make of it, and the
jams. -/

namespace Sys2Proof.Machine

variable {s t : State}

/-! ## The visit in progress -/

theorem Visit.received_of_hasReceived {v : Visit} {old : List BusChar} (h : v.hasReceived old) :
    v.received = some old := by
  rcases h with ⟨h, rfl⟩ | h <;> simp [Visit.received, h]

theorem Visit.phase_of_hasReceived {v : Visit} {old : List BusChar} (h : v.hasReceived old) : v.phase ≠ .sending := by
  rcases h with ⟨h, -⟩ | h <;> simp [h]

theorem replying_of_hasReceived {v : Visit} {old : List BusChar} (hlisten : s.bus.listening = true)
    (hv : s.bus.visit = some v) (h : v.hasReceived old) : s.replying = some (v, old) := by
  rw [State.replying, if_pos hlisten, hv]
  dsimp only
  rw [Visit.received_of_hasReceived h]
  rfl

theorem replying_of_no_visit (hv : s.bus.visit = none) : s.replying = none := by
  simp [State.replying, hv]

theorem receiverOn_of_not_sending (h : ∀ v, s.bus.visit = some v → v.phase ≠ .sending) : s.receiverOn = true := by
  unfold State.receiverOn State.driverEnabled
  cases hv : s.bus.visit with
  | none => rfl
  | some v => simpa using h v hv

theorem receiverOn_of_no_visit (hv : s.bus.visit = none) : s.receiverOn = true :=
  receiverOn_of_not_sending fun v h => by rw [hv] at h; exact nomatch h

theorem receiverOn_of_hasReceived {v : Visit} {old : List BusChar} (hv : s.bus.visit = some v)
    (h : v.hasReceived old) : s.receiverOn = true :=
  receiverOn_of_not_sending fun w hw => by
    rw [hv] at hw
    cases hw
    exact Visit.phase_of_hasReceived h

/-! ## What ends a reply -/

/-- A gap or a break is an error (R5, R8). -/
theorem classify_of_ended {node : Node} {chars : List BusChar} {gap broken : Bool} (h : gap = true ∨ broken = true) :
    classify node chars gap broken = none := by
  have hne : errorSet node chars gap broken ≠ [] := by
    unfold errorSet
    rcases h with rfl | rfl <;> simp
  unfold classify
  split
  · next heq _ _ => exact absurd heq hne
  · rfl

/-- What the sequencer makes of a visit that failed (R7, R15). -/
theorem concludeVisit_damaged (v : Visit) (s : State) :
    concludeVisit v .damaged s = if v.removed then s.setBus fun b => { b with visit := none, space := none }
      else missNode v.node .damaged (s.setBus fun b => { b with visit := none, space := none }) := rfl

theorem concludeVisit_silent (v : Visit) (s : State) :
    concludeVisit v .silent s = if v.removed then s.setBus fun b => { b with visit := none, space := none }
      else missNode v.node .silent (s.setBus fun b => { b with visit := none, space := none }) := rfl

theorem concludeBroken_eq (v : Visit) (chars : List BusChar) {gap broken : Bool} (h : gap = true ∨ broken = true)
    (s : State) : concludeBroken v chars gap broken s = concludeVisit v .damaged s := by
  rw [concludeBroken, classify_of_ended h]

/-! ## The rows -/

/-- Settles O34. -/
theorem busLineRows : Obligations.BusLineRows := by
  unfold Obligations.BusLineRows
  refine fun s hl => ⟨fun v hv hph => ?_, fun times hb => ?_, fun times hlisten hv => ?_,
    fun v old times hlisten hv hold hnot => ?_, fun hdeaf hj hunbroken => ?_, fun ms hj hnot => ?_, fun ms hj => ?_,
    fun hj => ?_⟩
  · change execFrameSent s = _
    rw [execFrameSent, taking_of_live _ hl]
    rw [show s.fresh.bus.visit = some v from hv]
    dsimp only
    rw [if_pos hph]
    rfl
  · have same : ∀ f : List BusChar → State → State, (f = takeBreak ∨ (busChars times).2 = true) →
        overLine f times = overLine takeBreak times := fun f _ => by
      funext u
      simp only [overLine, hb, if_true]
    exact ⟨congrArg (taking · s) (same takeReply (.inr hb)), congrArg (taking · s) (same takeGap (.inr hb))⟩
  · change execBreak times s = _
    rw [execBreak, taking_of_live _ hl]
    unfold overLine
    have hon : s.fresh.receiverOn = true := receiverOn_of_no_visit hv
    have hreplying : s.fresh.replying = none := replying_of_no_visit hv
    rw [ite_self, takeBreak, if_pos (by rw [hon]; simpa using hlisten), hreplying]
    rfl
  · change execBreak times s = _
    rw [execBreak, taking_of_live _ hl]
    unfold overLine
    have hon : s.fresh.receiverOn = true := receiverOn_of_hasReceived hv hold
    have hreplying := replying_of_hasReceived (s := s.fresh) hlisten hv hold
    rw [ite_self, takeBreak, if_pos (by rw [hon]; simpa using hlisten), hreplying]
    dsimp only
    rw [hnot]
    rfl
  · change execReceiverResume s = _
    rw [execReceiverResume, taking_of_live _ hl]
    rw [if_neg (by simp [hdeaf, hj])]
    dsimp only
    split
    · rfl
    · next v hv =>
      split
      · next chars hph => exact absurd hph (hunbroken v hv chars)
      all_goals rfl
  · change execBusJammed ms s = _
    rw [execBusJammed, taking_of_live _ hl]
    have hon : ∀ u : State, u.bus.visit = s.bus.visit → u.receiverOn = true := fun u hu =>
      receiverOn_of_not_sending fun v hv => hnot v (hu ▸ hv)
    rw [if_pos (by rw [hon s.fresh rfl]; simpa using hj), checkJam,
      show ((s.fresh.setBus fun b => { b with space := some ms }).receiverOn) = true from hon _ rfl]
    by_cases hms : ms < s.ret.config.jamLimit
    · rw [if_neg, if_pos hms]
      · rfl
      · simp [State.setBus, Nat.not_le.mpr hms]
    · rw [if_pos, if_neg hms]
      · rfl
      · simp [State.setBus, Nat.not_lt.mp hms, hj]
  · change execBusJammed ms s = _
    rw [execBusJammed, taking_of_live _ hl]
    rw [if_neg (by simp [hj])]
  · change execJamEnd s = _
    rw [execJamEnd, taking_of_live _ hl]
    rw [if_pos hj]
    rfl

/-- Settles O35. -/
theorem failedVisitIsMissed : Obligations.FailedVisitIsMissed := by
  unfold Obligations.FailedVisitIsMissed
  intro s v hl hv
  refine ⟨fun hph => ?_, fun old times chars hchars hlisten hold => ⟨fun hc hclass => ?_, fun hc hne => ?_⟩,
    fun chars hdeaf hj hph => ?_⟩
  · change execReplyWindowClose s = _
    rw [execReplyWindowClose, taking_of_live _ hl]
    rw [show s.fresh.bus.visit = some v from hv]
    dsimp only
    rw [if_pos hph, concludeVisit_silent]
    rfl
  · have hrun : ∀ f : List BusChar → State → State, overLine f times s.fresh = f chars s.fresh := fun f => by
      simp only [overLine, hchars]
      rfl
    have hreplying := replying_of_hasReceived (s := s.fresh) hlisten hv hold
    have received : receiveChars v old chars s.fresh = concludeVisit v .damaged s.fresh := by
      rw [receiveChars]
      rw [if_pos hc, hclass]
    constructor
    · change execReplyComplete times s = _
      rw [execReplyComplete, taking_of_live _ hl]
      rw [hrun, takeReply, hreplying]
      dsimp only
      rw [received, concludeVisit_damaged]
      rfl
    · change execReplyGap times s = _
      rw [execReplyGap, taking_of_live _ hl]
      have hsome : ¬ (old ++ chars).isEmpty = true := fun he => by
        rw [List.isEmpty_iff.mp he] at hc
        exact absurd hc (by decide)
      rw [hrun, takeGap, hreplying]
      dsimp only
      rw [if_neg hsome, if_pos hc, received, concludeVisit_damaged]
      rfl
  · have hrun : ∀ f : List BusChar → State → State, overLine f times s.fresh = f chars s.fresh := fun f => by
      simp only [overLine, hchars]
      rfl
    have hreplying := replying_of_hasReceived (s := s.fresh) hlisten hv hold
    have hsome : ¬ (old ++ chars).isEmpty = true := fun he => hne (List.isEmpty_iff.mp he)
    have hincomplete : ¬ replyIsComplete (old ++ chars) = true := by rw [hc]; exact Bool.false_ne_true
    constructor
    · change execReplyGap times s = _
      rw [execReplyGap, taking_of_live _ hl]
      rw [hrun, takeGap, hreplying]
      dsimp only
      rw [if_neg hsome, if_neg hincomplete, concludeBroken_eq _ _ (.inl rfl), concludeVisit_damaged]
      rfl
    · change execReplyComplete times s = _
      rw [execReplyComplete, taking_of_live _ hl]
      rw [hrun, takeReply, hreplying]
      dsimp only
      rw [receiveChars]
      rw [if_neg hincomplete, Visit.withReply, if_neg (by simpa using hsome)]
      rfl
  · change execReceiverResume s = _
    rw [execReceiverResume, taking_of_live _ hl]
    rw [if_neg (by simp [hdeaf, hj])]
    dsimp only
    rw [show (listenAgain s.fresh).bus.visit = some v from hv]
    dsimp only
    rw [hph]
    dsimp only
    rw [concludeBroken_eq _ _ (.inr rfl), concludeVisit_damaged]
    rfl

end Sys2Proof.Machine
end

section
/-! What a VALID reply does (R7, R15, R17 to R21, R31). -/

namespace Sys2Proof.Machine

variable {s t : State}

/-! ## The visit that ends with it -/

/-- A reply that its characters make complete and VALID ends the visit, in either row that brings them (R5, R7). -/
theorem exec_completing {v : Visit} {old chars : List BusChar} {times : List BusTime} {f : ReplyFields}
    (hl : s.live = true) (hchars : busChars times = (chars, false)) (hv : s.bus.visit = some v)
    (hlisten : s.bus.listening = true) (hold : v.hasReceived old) (hc : replyIsComplete (old ++ chars) = true)
    (hf : classify v.node (old ++ chars) false false = some f) :
    exec (.replyComplete times) s = .next (if v.removed then s.visitEnded else takeValid v.node v.tag f s.visitEnded)
    ∧ exec (.replyGap times) s = .next (if v.removed then s.visitEnded else takeValid v.node v.tag f s.visitEnded) := by
  have hrun : ∀ g : List BusChar → State → State, overLine g times s.fresh = g chars s.fresh := fun g => by
    simp only [overLine, hchars]
    rfl
  have hreplying := replying_of_hasReceived (s := s.fresh) hlisten hv hold
  have received : receiveChars v old chars s.fresh
      = if v.removed then s.visitEnded else takeValid v.node v.tag f s.visitEnded := by
    rw [receiveChars, if_pos hc, hf]
    rfl
  constructor
  · change execReplyComplete times s = _
    rw [execReplyComplete, taking_of_live _ hl, hrun, takeReply, hreplying]
    exact congrArg _ received
  · change execReplyGap times s = _
    have hsome : ¬ (old ++ chars).isEmpty = true := fun he => by
      rw [List.isEmpty_iff.mp he] at hc
      exact absurd hc (by decide)
    rw [execReplyGap, taking_of_live _ hl, hrun, takeGap, hreplying]
    dsimp only
    rw [if_neg hsome, if_pos hc]
    exact congrArg _ received

/-! ## Presence -/

theorem setTerm_eq (x : TermIx) (f : TermState → TermState) (s : State) :
    s.setTerm x f = { s with term := s.term.set x.val (f (s.terminal x)) } := rfl

theorem setVol_eq (p : PosIx) (f : PosState → PosState) (s : State) :
    s.setVol p f = { s with pos := s.pos.set p.val (f (s.vol p)) } := rfl

theorem vol_setVol_same (p : PosIx) (f : PosState → PosState) (s : State) : (s.setVol p f).vol p = f (s.vol p) :=
  (State.vol_setVol ..).trans (if_pos rfl)

/-- The bus state of a node that was heard (R20). -/
def NodeBus.heard (b : NodeBus) : NodeBus := { b with presence := .present, miss := 0, skip := 0 }

theorem heardNode_terminal (x : TermIx) (s : State) :
    heardNode (.terminal x) s = s.setTerm x fun v => { v with bus := v.bus.heard } := by
  unfold heardNode
  dsimp only
  split <;> rfl

theorem heardNode_present {p : PosIx} (h : (s.vol p).bus.presence = .present) :
    heardNode (.machine p) s = s.setVol p fun v => { v with bus := v.bus.heard } :=
  if_pos h

/-- A position that was heard and told its display order (R27). -/
def State.told (s : State) (p : PosIx) : State :=
  s.setVol p fun v =>
    let q := queueDisplay (if (s.record p).oos || (s.record p).fault.isSome then .disable else .enable) v.orders
    { v with bus := v.bus.heard, changed := true, orders := q.1, owed := q.2 }

theorem machinePresent_eq {p : PosIx} {u w : State} (h : askDisplay p (u.markChanged p) = w) :
    machinePresent p u
      = match (w.record p).fault with
        | some f => if f.code = 16 then clearActive p w else w
        | none => w := by
  subst h
  rfl

/-- A machine that becomes PRESENT is told its display order, and its active NODE_LOST clears (R27, R152). -/
theorem heardNode_absent {p : PosIx} (h : (s.vol p).bus.presence ≠ .present) :
    heardNode (.machine p) s
      = match (s.record p).fault with
        | some f => if f.code = 16 then clearActive p (s.told p) else s.told p
        | none => s.told p := by
  have told : askDisplay p ((s.setNodeBus (.machine p) NodeBus.heard).markChanged p) = s.told p := by
    rw [State.setNodeBus, State.markChanged, setVol_setVol, askDisplay_eq, vol_setVol_same]
    dsimp only
    rw [setVol_setVol]
    rfl
  exact (if_neg h).trans (machinePresent_eq told)

theorem heardNode_returned {p : PosIx} (h : (s.vol p).bus.presence ≠ .present) {f : ActiveFault}
    (hf : (s.record p).fault = some f) (h16 : f.code = 16) : heardNode (.machine p) s = clearActive p (s.told p) := by
  rw [heardNode_absent h, hf]
  exact if_pos h16

/-! ## Tags -/

/-- The bus state of a node whose tag is learned (R17). -/
def NodeBus.learn (e : ItemTag) (b : NodeBus) : NodeBus := { b with counter := e, learned := true }

theorem learnOrConfirm_unlearned {node : Node} {carried : Option ItemTag} {f : ReplyFields}
    (h : (s.nodeBus node).learned = false) :
    learnOrConfirm node carried f s = s.setNodeBus node (NodeBus.learn f.echo) :=
  if_pos (by rw [h]; rfl)

theorem learnOrConfirm_quiet {node : Node} {carried : Option ItemTag} {f : ReplyFields}
    (h : (s.nodeBus node).learned = true) (hnot : ¬ (carried = some f.echo ∧ s.headTag node = some f.echo)) :
    learnOrConfirm node carried f s = s := by
  unfold learnOrConfirm
  rw [if_neg (by rw [h]; decide), if_neg fun hc => hnot (by simpa using hc)]

theorem learnOrConfirm_machine {p : PosIx} {carried : Option ItemTag} {r : StateReport}
    (h : (s.vol p).bus.learned = true) (hcarried : carried = some r.echo)
    (hhead : s.headTag (.machine p) = some r.echo) :
    learnOrConfirm (.machine p) carried (.state r) s = confirmOrder p r.outcome s := by
  unfold learnOrConfirm
  rw [if_neg (by rw [show (s.nodeBus (.machine p)).learned = true from h]; decide),
    if_pos (by simpa using ⟨hcarried, hhead⟩)]

theorem learnOrConfirm_terminal {x : TermIx} {carried : Option ItemTag} {f : ReplyFields}
    (h : (s.terminal x).bus.learned = true) (hcarried : carried = some f.echo)
    (hhead : s.headTag (.terminal x) = some f.echo) :
    learnOrConfirm (.terminal x) carried f s = confirmItem x s := by
  unfold learnOrConfirm
  rw [if_neg (by rw [show (s.nodeBus (.terminal x)).learned = true from h]; decide),
    if_pos (by simpa using ⟨hcarried, hhead⟩)]

theorem headTag_machine {p : PosIx} {e : ItemTag} :
    s.headTag (.machine p) = some e ↔ ∃ o os, (s.vol p).orders = o :: os ∧ o.tag = some e := by
  unfold State.headTag
  cases h : (s.vol p).orders <;> simp [h]

theorem headTag_terminal {x : TermIx} {e : ItemTag} :
    s.headTag (.terminal x) = some e ↔ ∃ i is, (s.terminal x).outbox = i :: is ∧ i.tag = some e := by
  unfold State.headTag
  cases h : (s.terminal x).outbox <;> simp [h]

/-! ## A quiet STATE -/

theorem faultTakesClass_same {p : PosIx} {cfg : PosConfig} (h : (s.record p).config = some cfg) :
    faultTakesClass p cfg.cls s = s.setVol p fun v => { v with mismatch := false } := by
  unfold faultTakesClass
  rw [h, if_neg (by simp)]

theorem faultTakesField_zero_of_no_fault {p : PosIx} (ms : MachineState) (h : (s.record p).fault = none) :
    faultTakesField p 0 ms s = s.setVol p fun v => { v with prevFault := 0 } := by
  unfold faultTakesField
  dsimp only
  rw [if_pos rfl, show ((s.setVol p fun v => { v with prevFault := 0 }).record p).fault = none from h]

theorem sessionTakesState_idle {p : PosIx} {ms : MachineState} (h : s.session p = none) (hms : ms ≠ .running) :
    sessionTakesState p ms s = s.setVol p fun v =>
      { v with unpaid := false, windDown := v.windDown && ms == .paused } := by
  have hrun : (ms == .running) = false := beq_eq_false_iff_ne.mpr hms
  have hses : (clearMarks p ms s).session p = none := h
  unfold sessionTakesState
  dsimp only
  rw [hses]
  dsimp only
  rw [if_neg hms]
  unfold clearMarks
  simp only [hrun, Bool.and_false, Bool.false_or]

/-- The heat budget unit at a position without a grant and a session, the heater off (R132). -/
theorem heatTakesState_idle {p : PosIx} {request : Bool} (hs : s.session p = none) (hg : (s.vol p).grant = .none) :
    heatTakesState p false request s = s.setVol p fun v =>
      { v with heatRequest := request, violations := if s.heatTested p then 0 else v.violations } := by
  have test : testViolation p false s
      = s.setVol p fun v => { v with violations := if s.heatTested p then 0 else v.violations } := by
    unfold testViolation
    cases ht : s.heatTested p with
    | false =>
      refine (if_pos rfl).trans ?_
      exact (congrArg (fun v => ({ s with pos := v } : State)) (Vector.set_getElem_self _)).symm
    | true =>
      rw [if_neg (by decide), if_neg (by simp [State.heatViolating])]
      rfl
  unfold heatTakesState
  rw [test]
  generalize hu : (s.setVol p fun v => { v with violations := if s.heatTested p then 0 else v.violations }) = u
  have hug : (u.vol p).grant = .none := by rw [← hu, vol_setVol_same]; exact hg
  have hus : u.session p = none := by rw [← hu]; exact hs
  have hrel : u.releaseEnds p false = false := by simp [State.releaseEnds, hug]
  have hmay : ∀ w : State, w.session p = none → w.mayQueue p = false := fun w hw => by
    simp [State.mayQueue, State.sessionIs, hw]
  have hkeep : ∀ w : State, (w.vol p).grant = .none → withdraw p w = w := fun w hw => by
    unfold withdraw; rw [hw]
  dsimp only
  rw [hrel, if_neg Bool.false_ne_true,
    hmay (u.setVol p fun v => { v with heatRequest := request }) hus, Bool.and_false, if_neg Bool.false_ne_true,
    hkeep _ (by rw [vol_setVol_same]; exact hug), ite_self, ← hu, setVol_setVol]

/-- A reply's fields are handed on once its presence and its tag are taken (R20). -/
theorem takeValid_eq (node : Node) (carried : Option ItemTag) (f : ReplyFields) (s : State) :
    takeValid node carried f s = handOn node f (learnOrConfirm node carried f (heardNode node s)) := rfl

theorem setTerm_setTerm (x : TermIx) (f g : TermState → TermState) (s : State) :
    (s.setTerm x f).setTerm x g = s.setTerm x fun v => g (f v) := by
  simp [State.setTerm]

theorem setTerm_congr {x : TermIx} {f g : TermState → TermState} (h : f (s.terminal x) = g (s.terminal x)) :
    s.setTerm x f = s.setTerm x g := by
  rw [setTerm_eq, setTerm_eq, h]

theorem setVol_congr {p : PosIx} {f g : PosState → PosState} (h : f (s.vol p) = g (s.vol p)) :
    s.setVol p f = s.setVol p g := by
  rw [setVol_eq, setVol_eq, h]

theorem handOn_nil (x : TermIx) (e : ItemTag) (s : State) : handOn (.terminal x) (.nil e) s = s := rfl

/-- A NIL that confirms nothing (R20). -/
theorem takeValid_nil {x : TermIx} {carried : Option ItemTag} {echo : ItemTag}
    (h : carried = none ∨ (s.terminal x).bus.learned = false) :
    takeValid (.terminal x) carried (.nil echo) s = s.setTerm x fun v =>
      { v with bus := v.bus.heard.learn (if v.bus.learned then v.bus.counter else echo) } := by
  have hlearned : ((s.setTerm x fun v => { v with bus := v.bus.heard }).nodeBus (.terminal x)).learned
      = (s.terminal x).bus.learned := by
    rw [State.nodeBus, State.terminal_setTerm, if_pos rfl]
    rfl
  rw [takeValid_eq, heardNode_terminal]
  cases hl : (s.terminal x).bus.learned with
  | false =>
    rw [learnOrConfirm_unlearned (hlearned.trans hl), State.setNodeBus, setTerm_setTerm, handOn_nil]
    exact setTerm_congr (by rw [hl]; rfl)
  | true =>
    rw [learnOrConfirm_quiet (hlearned.trans hl) fun hc => by
      rcases h with h | h
      · rw [h] at hc; exact nomatch hc.1
      · rw [hl] at h; exact nomatch h]
    rw [handOn_nil]
    refine setTerm_congr ?_
    rw [hl, if_pos rfl, NodeBus.learn, ← hl]
    rfl

/-- A STATE that reports nothing new at a free position (R29, R116, R143). -/
theorem dispatchState_quiet {p : PosIx} {cfg : PosConfig} {x : LastState} (hcfg : (s.record p).config = some cfg)
    (hf : (s.record p).fault = none) (hs : s.session p = none) (hg : (s.vol p).grant = .none)
    (hcls : x.cls = cfg.cls) (hfault : x.fault = 0) (hoff : x.heaterOn = false) (hms : x.mstate ≠ .running) :
    dispatchState p x s = s.setVol p fun v =>
      { v with
        lastState := some x, mismatch := false, prevFault := 0, unpaid := false
        windDown := v.windDown && x.mstate == .paused
        heatRequest := x.heatRequest, violations := if s.heatTested p then 0 else v.violations } := by
  unfold dispatchState
  dsimp only
  rw [hcls, hfault, hoff, faultTakesClass_same (s := s.setVol p fun v => { v with lastState := some x }) hcfg,
    setVol_setVol, faultTakesField_zero_of_no_fault _ (by exact hf), setVol_setVol,
    sessionTakesState_idle (by exact hs) hms, setVol_setVol, heatTakesState_idle (by exact hs)
      (by rw [vol_setVol_same]; exact hg), setVol_setVol]
  have tested : ∀ f : PosState → PosState, (f (s.vol p)).armed = (s.vol p).armed →
      (s.setVol p f).heatTested p = s.heatTested p := fun f hfa => by
    rw [State.heatTested, vol_setVol_same, hfa]
    rfl
  rw [tested _ rfl]

/-- Settles O37. -/
theorem validReplyTaken : Obligations.ValidReplyTaken := by
  unfold Obligations.ValidReplyTaken
  refine ⟨fun s v old chars times f hl hchars hv hrem hlisten hold hc hf => ?_,
    fun s v old chars times f hl hchars hv hrem hlisten hold hc hf => ?_, ?_, ?_, ?_, fun _ _ _ => rfl, ?_⟩
  · have := exec_completing hl hchars hv hlisten hold hc hf
    rwa [hrem] at this
  · have := exec_completing hl hchars hv hlisten hold hc hf
    rwa [hrem] at this
  · intro s x carried echo v hor
    exact takeValid_nil hor
  · intro s p cfg r v hcfg hfault hses hgrant hpres hlearned hcls hfield hheater hms
    rw [takeValid_eq, heardNode_present hpres, learnOrConfirm_quiet
      (by rw [State.nodeBus, vol_setVol_same]; exact hlearned) (fun ⟨hc, _⟩ => by cases hc)]
    refine (dispatchState_quiet (s := s.setVol p fun v => { v with bus := v.bus.heard }) hcfg hfault hses
      (by rw [vol_setVol_same]; exact hgrant) hcls hfield hheater hms).trans ?_
    have tested : (s.setVol p fun v => { v with bus := v.bus.heard }).heatTested p
        = decide (v.armed = true ∧ 0 < cfg.heater) := by
      rw [State.heatTested, vol_setVol_same, State.heaterDemand, show ((s.setVol p _).record p).config = some cfg from hcfg]
      simp [v]
    have kept : v.bus.heard = { v.bus with miss := 0, skip := 0 } := by rw [NodeBus.heard, ← hpres]
    rw [setVol_setVol, tested]
    refine congrArg (fun v => ({ s with pos := s.pos.set p.val v } : State)) ?_
    simp only [decide_eq_true_iff]
    exact congrArg (fun b => ({ v with
      lastState := some r.last, mismatch := false, prevFault := 0, unpaid := false, bus := b
      windDown := v.windDown && r.last.mstate == .paused
      heatRequest := r.last.heatRequest
      violations := if v.armed = true ∧ 0 < cfg.heater then 0 else v.violations } : PosState)) kept
  · intro s node carried f e hecho u learned
    have echo : f.echo = e := by
      rcases hecho with ⟨r, rfl, hr⟩ | rfl | ⟨r, rfl⟩
      · exact hr
      · rfl
      · rfl
    refine ⟨?_, ?_⟩
    · rintro p rfl r rfl v confirms
      refine ⟨fun hl => ?_, fun hl hc => ?_, fun hl hc => ?_⟩
      · rw [takeValid_eq, learnOrConfirm_unlearned (show (u.nodeBus (.machine p)).learned = false from hl), echo]
        rfl
      · obtain ⟨hcar, hhead⟩ := hc
        rw [takeValid_eq, learnOrConfirm_machine hl (hcar.trans (by rw [← echo]; rfl))
          ((headTag_machine.mpr hhead).trans (by rw [← echo]; rfl))]
        rfl
      · rw [takeValid_eq, learnOrConfirm_quiet (show (u.nodeBus (.machine p)).learned = true from hl)
          fun ⟨hcar, hhead⟩ => hc ⟨echo ▸ hcar, headTag_machine.mp (echo ▸ hhead)⟩]
        rfl
    · rintro x rfl hr v confirms taken
      have handed : ∀ w, handOn (.terminal x) f w = taken w := fun w => by
        cases f with
        | state r => exact absurd rfl (hr r)
        | nil => rfl
        | card => rfl
      refine ⟨fun hl => ?_, fun hl hc => ?_, fun hl hc => ?_⟩
      · rw [takeValid_eq, learnOrConfirm_unlearned (show (u.nodeBus (.terminal x)).learned = false from hl), echo, handed]
        rfl
      · obtain ⟨hcar, hhead⟩ := hc
        rw [takeValid_eq, learnOrConfirm_terminal hl (hcar.trans (by rw [← echo]))
          ((headTag_terminal.mpr hhead).trans (by rw [← echo])), handed]
      · rw [takeValid_eq, learnOrConfirm_quiet (show (u.nodeBus (.terminal x)).learned = true from hl)
          fun ⟨hcar, hhead⟩ => hc ⟨echo ▸ hcar, headTag_terminal.mp (echo ▸ hhead)⟩, handed]
  · intro s node heard
    refine ⟨?_, ?_⟩
    · rintro x rfl
      exact heardNode_terminal x s
    · rintro p rfl v r q
      refine ⟨fun hpres => heardNode_present hpres, fun hpres hf => ?_, fun hpres f hf h16 => ?_⟩
      · rw [heardNode_absent hpres]
        split
        · next f hfault => exact if_neg (hf f hfault)
        · rfl
      · intro z
        have hold : (s.told p).vol p = { v with bus := v.bus.heard, changed := true, orders := q.1, owed := q.2 } :=
          vol_setVol_same ..
        rw [heardNode_returned hpres hf h16, clearActive_eq (s := s.told p) hf, hold]
        have twice : ∀ w, (s.told p).pos.set p.val w = s.pos.set p.val w := fun w => Vector.set_set ..
        have final : (if ((s.told p).record p).oos = true then
              ({ v with bus := v.bus.heard, changed := true, orders := q.1, owed := q.2 } : PosState)
            else { v with
              bus := v.bus.heard, changed := true, orders := (queueDisplay .enable q.1).1
              owed := (queueDisplay .enable q.1).2 })
            = { v with bus := v.bus.heard, changed := true, orders := z.1, owed := z.2 } := by
          by_cases hoos : r.oos = true
          · rw [show z = q from if_pos hoos]
            exact if_pos hoos
          · rw [show z = queueDisplay .enable q.1 from if_neg hoos]
            exact if_neg hoos
        dsimp only
        rw [twice, final]
        rfl

end Sys2Proof.Machine
end

section
/-! The replies of nodes: the fields of their payloads, the error set, and the characters on the line (R1, R5 to R8,
R29, R30, R194). -/

namespace Sys2Proof.Machine

variable {s t : State}

/-! ## Codes -/

theorem MachineState.ofCode_eq_none {b : Byte} : MachineState.ofCode b = none ↔ 4 < b.toNat := by
  revert b; decide +kernel

theorem Phase.ofCode_eq_none {b : Byte} : Phase.ofCode b = Option.none ↔ 7 < b.toNat := by
  revert b; decide +kernel

theorem RefusalReason.ofCode_eq_none {b : Byte} : RefusalReason.ofCode b = none ↔ b.toNat = 0 ∨ 3 < b.toNat := by
  revert b; decide +kernel

theorem MachineClass.code_of_ofCode {b : Byte} {c : MachineClass} (h : MachineClass.ofCode b = some c) :
    c.code = b.toNat := by
  have all : ∀ b : Byte, ((MachineClass.ofCode b).all fun c => c.code == b.toNat) = true := by decide +kernel
  have hb := all b
  rw [h] at hb
  simpa using hb

theorem MachineState.code_of_ofCode {b : Byte} {c : MachineState} (h : MachineState.ofCode b = some c) :
    c.code = b.toNat := by
  have all : ∀ b : Byte, ((MachineState.ofCode b).all fun c => c.code == b.toNat) = true := by decide +kernel
  have hb := all b
  rw [h] at hb
  simpa using hb

theorem Phase.code_of_ofCode {b : Byte} {c : Phase} (h : Phase.ofCode b = some c) : c.code = b.toNat := by
  have all : ∀ b : Byte, ((Phase.ofCode b).all fun c => c.code == b.toNat) = true := by decide +kernel
  have hb := all b
  rw [h] at hb
  simpa using hb

theorem RefusalReason.ofCode_of_some {b : Byte} {c : RefusalReason} (h : RefusalReason.ofCode b = some c) :
    c = if b = 1#8 then .doorOpen else if b = 2#8 then .notReady else .badProgram := by
  unfold RefusalReason.ofCode at h
  split_ifs at h ⊢ <;> cases h <;> rfl

theorem OrderOutcome.ofCodes_eq_none {out reason : Byte} : OrderOutcome.ofCodes out reason = none
    ↔ 1 < out.toNat ∨ (out = 1#8 ∧ (reason.toNat = 0 ∨ 3 < reason.toNat)) := by
  unfold OrderOutcome.ofCodes
  by_cases h0 : out = 0#8
  · simp [h0]
  · by_cases h1 : out = 1#8
    · simp [h1, RefusalReason.ofCode_eq_none]
    · have hlt : ∀ b : Byte, b ≠ 0#8 → b ≠ 1#8 → 1 < b.toNat := by decide +kernel
      simp [h0, h1, hlt out h0 h1]

/-! ## The payload of a STATE -/

/-- The fields of a STATE whose codes name their values (R30, R194). -/
def stateReport (cls : MachineClass) (ms : MachineState) (ph : Phase) (outcome : OrderOutcome)
    (flags rem fault echo : Byte) : StateReport :=
  { last :=
      { cls := cls, mstate := ms, phase := ph, doorLocked := flags.getLsbD 0, heaterOn := flags.getLsbD 1,
        heatRequest := flags.getLsbD 2, remaining := min rem.toNat 254, fault := min fault.toNat 15 }
    echo := echo.setWidth 4
    outcome := outcome }

theorem parseFields_state (cls ms prog ph flags rem fault echo out reason : Byte) (more : List Byte) :
    parseFields 0x11#8 (cls :: ms :: prog :: ph :: flags :: rem :: fault :: echo :: out :: reason :: more)
      = (MachineClass.ofCode cls).bind fun c => (MachineState.ofCode ms).bind fun m => (Phase.ofCode ph).bind fun h =>
          (OrderOutcome.ofCodes out reason).bind fun o =>
            some (.state (stateReport c m h o flags rem fault echo)) := by
  rw [parseFields, if_pos (by decide), parseState]
  cases MachineClass.ofCode cls with
  | none => rfl
  | some c =>
    cases MachineState.ofCode ms with
    | none => rfl
    | some m =>
      cases Phase.ofCode ph with
      | none => rfl
      | some h => cases OrderOutcome.ofCodes out reason <;> rfl

/-- A STATE fails the CONTENT test exactly for codes out of their sets (R194). -/
theorem parseFields_state_eq_none (cls ms prog ph flags rem fault echo out reason : Byte) (more : List Byte) :
    parseFields 0x11#8 (cls :: ms :: prog :: ph :: flags :: rem :: fault :: echo :: out :: reason :: more) = none
      ↔ (cls ≠ 1#8 ∧ cls ≠ 2#8) ∨ 4 < ms.toNat ∨ 7 < ph.toNat ∨ 1 < out.toNat
        ∨ (out = 1#8 ∧ (reason.toNat = 0 ∨ 3 < reason.toNat)) := by
  rw [parseFields_state, ← MachineClass.ofCode_eq_none, ← MachineState.ofCode_eq_none, ← Phase.ofCode_eq_none,
    ← OrderOutcome.ofCodes_eq_none]
  cases MachineClass.ofCode cls with
  | none => simp
  | some c =>
    cases MachineState.ofCode ms with
    | none => simp
    | some m =>
      cases Phase.ofCode ph with
      | none => simp
      | some h => cases OrderOutcome.ofCodes out reason <;> simp

theorem toNat_min_254 (b : Byte) : min b.toNat 254 = if b.toNat = 255 then 254 else b.toNat := by
  have := b.isLt
  split <;> omega

theorem toNat_min_15 (b : Byte) : min b.toNat 15 = if 15 < b.toNat then 15 else b.toNat := by
  split <;> omega

/-! ## Characters on the line -/

theorem busChars_cons_mark {t : BusTime} (rest : List BusTime) (h : t.getLsbD 0 = true) :
    busChars (t :: rest) = busChars rest := by
  rw [busChars, if_pos (by rw [startsAt, h]; rfl)]

theorem busChars_cons_break {t : BusTime} (rest : List BusTime) (h : ∀ i < 11, t.getLsbD i = false) :
    busChars (t :: rest) = ([], true) := by
  have ht : t = 0#11 := BitVec.eq_of_getLsbD_eq fun i hi => by rw [h i hi]; simp
  rw [busChars, if_neg (by rw [startsAt, h 0 (by omega)]; decide), if_pos (by rw [ht]; rfl)]

theorem busChars_cons_char {t : BusTime} (rest : List BusTime) (h0 : t.getLsbD 0 = false) {i : Nat}
    (hi : t.getLsbD i = true) :
    busChars (t :: rest) = (sampleChar t :: (busChars rest).1, (busChars rest).2) := by
  have ht : isBreak t = false := by
    refine beq_eq_false_iff_ne.mpr fun h => ?_
    rw [h] at hi
    simp at hi
  rw [busChars, if_neg (by rw [startsAt, h0]; decide), if_neg (by rw [ht]; exact Bool.false_ne_true)]

theorem sampleChar_data (t : BusTime) (i : Nat) (hi : i < 8) :
    (sampleChar t).data.getLsbD i = t.getLsbD (i + 1) := by
  rw [sampleChar, BitVec.getLsbD_extractLsb', Nat.add_comm]
  simp [hi]

/-! ## The size of a reply -/

theorem replySize_eq_some {chars : List BusChar} {n : Nat} (h : replySize chars = some n) :
    ∃ c, chars[2]? = some c ∧ n = 5 + c.data.toNat ∧ c.data.toNat ≤ 24 := by
  unfold replySize at h
  split at h
  · next c hc =>
    split at h
    · next hle => exact ⟨c, hc, (Option.some.inj h).symm, hle⟩
    · exact nomatch h
  · exact nomatch h

theorem five_le_of_replySize {chars : List BusChar} {n : Nat} (h : replySize chars = some n) : 5 ≤ n := by
  obtain ⟨c, -, rfl, -⟩ := replySize_eq_some h
  omega

theorem replyIsComplete_iff {chars : List BusChar} :
    replyIsComplete chars = true ↔ ∃ n, replySize chars = some n ∧ n ≤ chars.length := by
  unfold replyIsComplete
  cases replySize chars <;> simp

/-- The characters that are classified: those up to the full count (R5). -/
def countedChars (chars : List BusChar) : List BusChar :=
  match replySize chars with
  | some n => chars.take n
  | none => chars

theorem countedChars_of_size {chars : List BusChar} {n : Nat} (h : replySize chars = some n) :
    countedChars chars = chars.take n := by
  rw [countedChars, h]

theorem getElem?_countedChars {chars : List BusChar} {i : Nat} {c : BusChar} :
    (countedChars chars)[i]? = some c ↔ chars[i]? = some c ∧ ∀ n, replySize chars = some n → i < n := by
  unfold countedChars
  cases h : replySize chars with
  | none => simp
  | some n =>
    rw [List.getElem?_take]
    by_cases hi : i < n <;> simp [hi]

/-- The first three characters are always counted. -/
theorem getElem?_countedChars_of_lt {chars : List BusChar} {i : Nat} (hi : i < 3) :
    (countedChars chars)[i]? = chars[i]? := by
  unfold countedChars
  cases h : replySize chars with
  | none => rfl
  | some n =>
    have := five_le_of_replySize h
    exact (List.getElem?_take ..).trans (if_pos (by omega))

/-- Some data bytes of the characters. -/
def dataBytes (chars : List BusChar) (first last : Nat) : List Byte := ((chars.take last).drop first).map (·.data)

theorem body_eq_dataBytes {chars : List BusChar} {n k : Nat} (hn : n ≤ chars.length) (hk : k + 2 ≤ n) :
    (((chars.take n).map (·.data)).drop k).dropLast.dropLast = dataBytes chars k (n - 2) := by
  rw [dataBytes, List.dropLast_eq_take, List.dropLast_eq_take]
  simp only [List.length_take, List.length_drop, List.length_map, List.take_take, ← List.map_drop, ← List.map_take,
    List.drop_take]
  congr 2
  omega

theorem check_eq_dataBytes {chars : List BusChar} {n : Nat} (hn : n ≤ chars.length) :
    ((chars.take n).map (·.data)).drop (((chars.take n).map (·.data)).length - 2) = dataBytes chars (n - 2) n := by
  rw [dataBytes, List.length_map, List.length_take, Nat.min_eq_left hn, List.map_drop]

/-! ## The error set -/

theorem lengthAllowed_eq_false {k : Byte} {n : Nat} : lengthAllowed k n = false
    ↔ 24 < n ∨ (k = 0x11#8 ∧ n < 10) ∨ (k = 0x12#8 ∧ n < 1) ∨ (k = 0x13#8 ∧ n < 14) := by
  unfold lengthAllowed
  by_cases h1 : k = 0x11#8
  · simp [h1]
    omega
  · by_cases h2 : k = 0x12#8
    · simp [h2]
      omega
    · by_cases h3 : k = 0x13#8
      · simp [h3]
        omega
      · simp [h1, h2, h3]

theorem kindAllowed_eq_false {node : Node} {k : Byte} : kindAllowed node k = false
    ↔ (∃ p, node = .machine p ∧ k ≠ 0x11#8) ∨ ∃ t, node = .terminal t ∧ k ≠ 0x12#8 ∧ k ≠ 0x13#8 := by
  cases node <;> simp [kindAllowed]

theorem address_lt (node : Node) : node.address + 128 < 256 := by
  cases node with
  | machine p => have := p.isLt; simp only [Node.address]; omega
  | terminal x => have := x.isLt; simp only [Node.address]; omega

theorem err_eq_nil {b : Bool} {e : ReplyError} : (if b then [e] else []) = [] ↔ b = false := by
  cases b <;> simp

/-- The data of the counted characters, the bytes under the CRC, and whether the CRC agrees (R6). -/
def replyData (chars : List BusChar) : List Byte := (countedChars chars).map (·.data)
def replyBody (chars : List BusChar) : List Byte := ((replyData chars).drop 1).dropLast.dropLast
def crcAgrees (chars : List BusChar) : Bool :=
  word16 (crc16 (replyBody chars)) == (replyData chars).drop ((replyData chars).length - 2)

/-- The error set is empty when each of its tests passes (R6). -/
theorem errorSet_eq_nil {node : Node} {chars : List BusChar} {gap broken : Bool} :
    errorSet node chars gap broken = []
      ↔ (countedChars chars).any (·.framing) = false ∧ ((countedChars chars).head?.any fun c => !c.mark) = false
        ∧ ((countedChars chars).head?.any fun c => c.data != num1 (node.address + 128)) = false
        ∧ (countedChars chars).tail.any (·.mark) = false
        ∧ (match (replyData chars)[2]?, (replyData chars)[1]? with
          | some l, some k => !lengthAllowed k l.toNat
          | _, _ => false) = false
        ∧ (replyIsComplete chars && !crcAgrees chars) = false
        ∧ ((replyData chars)[1]?.any fun k => !kindAllowed node k) = false
        ∧ (replyIsComplete chars && crcAgrees chars
          && (replyData chars)[1]?.any fun k => (parseFields k ((replyBody chars).drop 2)).isNone) = false
        ∧ gap = false ∧ broken = false := by
  unfold errorSet
  simp only [List.append_eq_nil_iff, err_eq_nil, and_assoc]
  rfl

theorem crcAgrees_of_size {chars : List BusChar} {n : Nat} (h : replySize chars = some n) (hn : n ≤ chars.length) :
    crcAgrees chars = true ↔ word16 (crc16 (dataBytes chars 1 (n - 2))) = dataBytes chars (n - 2) n := by
  have five := five_le_of_replySize h
  rw [crcAgrees, replyBody, replyData, countedChars_of_size h, beq_iff_eq, body_eq_dataBytes hn (by omega),
    check_eq_dataBytes hn]

theorem payload_of_size {chars : List BusChar} {n : Nat} (h : replySize chars = some n) (hn : n ≤ chars.length) :
    (replyBody chars).drop 2 = dataBytes chars 3 (n - 2) := by
  have five := five_le_of_replySize h
  rw [replyBody, replyData, countedChars_of_size h, body_eq_dataBytes hn (by omega), dataBytes, dataBytes,
    ← List.map_drop, List.drop_drop]

/-- The kind character of a reply. -/
def hasKind (chars : List BusChar) (k : Byte) : Prop := ∃ c, chars[1]? = some c ∧ c.data = k

theorem getElem?_data (chars : List BusChar) {i : Nat} (hi : i < 3) :
    (replyData chars)[i]? = (chars[i]?).map (·.data) := by
  rw [replyData, List.getElem?_map, getElem?_countedChars_of_lt hi]

theorem hasKind_iff {chars : List BusChar} {k : Byte} :
    (replyData chars)[1]? = some k ↔ hasKind chars k := by
  rw [getElem?_data chars (by omega), Option.map_eq_some_iff]
  rfl

/-- A counted character of a kind. -/
def counted (chars : List BusChar) (i : Nat) (c : BusChar) : Prop :=
  chars[i]? = some c ∧ ∀ n, replySize chars = some n → i < n

theorem any_countedChars {chars : List BusChar} {f : BusChar → Bool} :
    (countedChars chars).any f = true ↔ ∃ i c, counted chars i c ∧ f c = true := by
  rw [List.any_eq_true]
  constructor
  · rintro ⟨c, hc, hf⟩
    obtain ⟨i, hi⟩ := List.mem_iff_getElem?.mp hc
    exact ⟨i, c, getElem?_countedChars.mp hi, hf⟩
  · rintro ⟨i, c, hc, hf⟩
    exact ⟨c, List.mem_of_getElem? (getElem?_countedChars.mpr hc), hf⟩

theorem any_tail_countedChars {chars : List BusChar} {f : BusChar → Bool} :
    (countedChars chars).tail.any f = true ↔ ∃ i c, 0 < i ∧ counted chars i c ∧ f c = true := by
  rw [List.any_eq_true]
  constructor
  · rintro ⟨c, hc, hf⟩
    obtain ⟨i, hi⟩ := List.mem_iff_getElem?.mp hc
    rw [List.getElem?_tail] at hi
    exact ⟨i + 1, c, Nat.succ_pos i, getElem?_countedChars.mp hi, hf⟩
  · rintro ⟨i, c, hpos, hc, hf⟩
    refine ⟨c, List.mem_iff_getElem?.mpr ⟨i - 1, ?_⟩, hf⟩
    rw [List.getElem?_tail, Nat.sub_add_cancel hpos]
    exact getElem?_countedChars.mpr hc

theorem head?_countedChars (chars : List BusChar) : (countedChars chars).head? = chars[0]? := by
  rw [List.head?_eq_getElem?, getElem?_countedChars_of_lt (by omega)]

/-- The errors of R6, in its order, and a gap or a break. -/
def ReplyFaulty (node : Node) (chars : List BusChar) (gap broken : Bool) : Prop :=
  (∃ i c, counted chars i c ∧ c.framing = true)
    ∨ (∃ c, chars[0]? = some c ∧ (c.mark = false ∨ c.data.toNat ≠ node.address + 128))
    ∨ (∃ i c, 0 < i ∧ counted chars i c ∧ c.mark = true)
    ∨ (∃ k c, hasKind chars k ∧ chars[2]? = some c ∧ (24 < c.data.toNat ∨ (k = 0x11#8 ∧ c.data.toNat < 10)
        ∨ (k = 0x12#8 ∧ c.data.toNat < 1) ∨ (k = 0x13#8 ∧ c.data.toNat < 14)))
    ∨ (∃ n, replySize chars = some n ∧ n ≤ chars.length
        ∧ word16 (crc16 (dataBytes chars 1 (n - 2))) ≠ dataBytes chars (n - 2) n)
    ∨ (∃ k, hasKind chars k ∧ ((∃ p, node = .machine p ∧ k ≠ 0x11#8)
        ∨ ∃ t, node = .terminal t ∧ k ≠ 0x12#8 ∧ k ≠ 0x13#8))
    ∨ (∃ n k, replySize chars = some n ∧ n ≤ chars.length ∧ hasKind chars k
        ∧ parseFields k (dataBytes chars 3 (n - 2)) = none)
    ∨ gap = true ∨ broken = true

/-- A reply's error set is empty exactly when it has no error. -/
theorem errorSet_eq_nil_iff {node : Node} {chars : List BusChar} {gap broken : Bool} :
    errorSet node chars gap broken = [] ↔ ¬ ReplyFaulty node chars gap broken := by
  have hframing : (countedChars chars).any (·.framing) = false ↔ ¬ ∃ i c, counted chars i c ∧ c.framing = true := by
    rw [← any_countedChars, Bool.not_eq_true]
  have hfirst : ((countedChars chars).head?.any fun c => !c.mark) = false
      ∧ ((countedChars chars).head?.any fun c => c.data != num1 (node.address + 128)) = false
      ↔ ¬ ∃ c, chars[0]? = some c ∧ (c.mark = false ∨ c.data.toNat ≠ node.address + 128) := by
    rw [head?_countedChars]
    cases h : chars[0]? with
    | none => simp
    | some c =>
      have same : c.data = num1 (node.address + 128) ↔ c.data.toNat = node.address + 128 := by
        rw [← BitVec.toNat_inj, toNat_num1 (address_lt node)]
      simp [same]
  have hmark : (countedChars chars).tail.any (·.mark) = false
      ↔ ¬ ∃ i c, 0 < i ∧ counted chars i c ∧ c.mark = true := by
    rw [← any_tail_countedChars, Bool.not_eq_true]
  have hlen : (match (replyData chars)[2]?, (replyData chars)[1]? with
          | some l, some k => !lengthAllowed k l.toNat
          | _, _ => false) = false
      ↔ ¬ ∃ k c, hasKind chars k ∧ chars[2]? = some c ∧ (24 < c.data.toNat ∨ (k = 0x11#8 ∧ c.data.toNat < 10)
        ∨ (k = 0x12#8 ∧ c.data.toNat < 1) ∨ (k = 0x13#8 ∧ c.data.toNat < 14)) := by
    rw [getElem?_data chars (by omega), getElem?_data chars (by omega)]
    simp only [← lengthAllowed_eq_false, hasKind]
    cases chars[2]? with
    | none => simp
    | some l => cases chars[1]? <;> simp
  have hkind : ((replyData chars)[1]?.any fun k => !kindAllowed node k) = false
      ↔ ¬ ∃ k, hasKind chars k ∧ ((∃ p, node = .machine p ∧ k ≠ 0x11#8)
        ∨ ∃ t, node = .terminal t ∧ k ≠ 0x12#8 ∧ k ≠ 0x13#8) := by
    rw [getElem?_data chars (by omega)]
    simp only [← kindAllowed_eq_false, hasKind]
    cases chars[1]? <;> simp
  have hcontent : (replyIsComplete chars && !crcAgrees chars) = false
      ∧ (replyIsComplete chars && crcAgrees chars
          && (replyData chars)[1]?.any fun k => (parseFields k ((replyBody chars).drop 2)).isNone) = false
      ↔ (¬ ∃ n, replySize chars = some n ∧ n ≤ chars.length
          ∧ word16 (crc16 (dataBytes chars 1 (n - 2))) ≠ dataBytes chars (n - 2) n)
        ∧ ¬ ∃ n k, replySize chars = some n ∧ n ≤ chars.length ∧ hasKind chars k
          ∧ parseFields k (dataBytes chars 3 (n - 2)) = none := by
    cases hc : replyIsComplete chars with
    | false =>
      have hnot : ∀ n, replySize chars = some n → ¬ n ≤ chars.length := fun n h1 h2 =>
        Bool.false_ne_true (hc.symm.trans (replyIsComplete_iff.mpr ⟨n, h1, h2⟩))
      refine ⟨fun _ => ⟨fun ⟨n, h1, h2, _⟩ => hnot n h1 h2, fun ⟨n, _, h1, h2, _⟩ => hnot n h1 h2⟩, fun _ => ⟨rfl, rfl⟩⟩
    | true =>
      obtain ⟨n, hsize, hn⟩ := replyIsComplete_iff.mp hc
      have agrees := crcAgrees_of_size hsize hn
      rw [payload_of_size hsize hn]
      simp only [hsize, Option.some.injEq, exists_eq_left', hn, true_and, ne_eq, not_not, ← hasKind_iff]
      rw [← agrees]
      cases crcAgrees chars with
      | false => simp
      | true => cases (replyData chars)[1]? <;> simp [hn, Option.eq_none_iff_forall_ne_some, Option.isSome_iff_exists]
  rw [errorSet_eq_nil]
  simp only [ReplyFaulty, not_or, Bool.not_eq_true]
  constructor
  · rintro ⟨h1, h2, h3, h4, h5, h6, h7, h8, h9, h10⟩
    obtain ⟨hcrc, hfields⟩ := hcontent.mp ⟨h6, h8⟩
    exact ⟨hframing.mp h1, hfirst.mp ⟨h2, h3⟩, hmark.mp h4, hlen.mp h5, hcrc, hkind.mp h7, hfields, h9, h10⟩
  · rintro ⟨h1, h2, h4, h5, hcrc, h7, hfields, h9, h10⟩
    obtain ⟨h6, h8⟩ := hcontent.mpr ⟨hcrc, hfields⟩
    obtain ⟨h2, h3⟩ := hfirst.mpr h2
    exact ⟨hframing.mpr h1, h2, h3, hmark.mpr h4, hlen.mpr h5, h6, hkind.mpr h7, h8, h9, h10⟩

/-! ## The class of a reply -/

theorem classify_of_faulty {node : Node} {chars : List BusChar} {gap broken : Bool}
    (h : ReplyFaulty node chars gap broken) : classify node chars gap broken = none := by
  have hne : errorSet node chars gap broken ≠ [] := fun he => errorSet_eq_nil_iff.mp he h
  unfold classify
  split
  · next heq _ _ => exact absurd heq hne
  · rfl

/-- A complete reply without an error is VALID (R7). -/
theorem classify_of_valid {node : Node} {chars : List BusChar} {gap broken : Bool}
    (hc : replyIsComplete chars = true) (h : ¬ ReplyFaulty node chars gap broken) :
    ∃ n k f, replySize chars = some n ∧ hasKind chars k ∧ parseFields k (dataBytes chars 3 (n - 2)) = some f
      ∧ classify node chars gap broken = some f := by
  obtain ⟨n, hsize, hn⟩ := replyIsComplete_iff.mp hc
  have five := five_le_of_replySize hsize
  have h1 : 1 < chars.length := by omega
  have hget : chars[1]? = some chars[1] := List.getElem?_eq_getElem h1
  have hk : hasKind chars chars[1].data := ⟨_, hget, rfl⟩
  have hclass : classify node chars gap broken = parseFields chars[1].data (dataBytes chars 3 (n - 2)) := by
    unfold classify
    rw [errorSet_eq_nil_iff.mpr h, hsize, hget]
    exact congrArg (parseFields chars[1].data) (body_eq_dataBytes hn (by omega))
  cases hf : parseFields chars[1].data (dataBytes chars 3 (n - 2)) with
  | none => exact absurd (.inr (.inr (.inr (.inr (.inr (.inr (.inl ⟨n, _, hsize, hn, hk, hf⟩))))))) h
  | some f => exact ⟨n, _, f, hsize, hk, hf, hclass.trans hf⟩

/-! ## The reply that a node sends -/

theorem length_replyChars (node : Node) (kind : Byte) (payload : List Byte) :
    (replyChars node kind payload).length = 5 + payload.length := by
  simp [replyChars, word16]
  omega

theorem replySize_replyChars (node : Node) (kind : Byte) {payload : List Byte} (h : payload.length ≤ 24) :
    replySize (replyChars node kind payload) = some (5 + payload.length) := by
  have hlen : (num1 payload.length).toNat = payload.length := toNat_num1 (by omega)
  unfold replySize
  rw [show (replyChars node kind payload)[2]? = some { data := num1 payload.length, mark := false, framing := false }
    from rfl]
  dsimp only
  rw [hlen, if_pos h]

theorem data_replyChars (node : Node) (kind : Byte) (payload : List Byte) :
    (replyChars node kind payload).map (·.data)
      = num1 (node.address + 128) :: (kind :: num1 payload.length :: payload)
        ++ word16 (crc16 (kind :: num1 payload.length :: payload)) := by
  simp [replyChars, Function.comp_def]

theorem dataBytes_eq (chars : List BusChar) (first last : Nat) :
    dataBytes chars first last = ((chars.map (·.data)).take last).drop first := by
  rw [dataBytes, List.map_drop, List.map_take]

/-- The bytes of a sent reply: what the CRC covers, the CRC, and the payload. -/
theorem dataBytes_replyChars (node : Node) (kind : Byte) (payload : List Byte) :
    dataBytes (replyChars node kind payload) 1 (3 + payload.length) = kind :: num1 payload.length :: payload
    ∧ dataBytes (replyChars node kind payload) (3 + payload.length) (5 + payload.length)
      = word16 (crc16 (kind :: num1 payload.length :: payload))
    ∧ dataBytes (replyChars node kind payload) 3 (3 + payload.length) = payload := by
  simp only [dataBytes_eq, data_replyChars]
  generalize hc : word16 (crc16 (kind :: num1 payload.length :: payload)) = crc
  have hlen : crc.length = 2 := by rw [← hc]; rfl
  refine ⟨?_, ?_, ?_⟩
  · rw [List.take_append_of_le_length (by simp; omega), List.take_of_length_le (by simp; omega)]
    rfl
  · rw [List.take_of_length_le (by simp; omega), List.drop_append_of_le_length (by simp; omega),
      List.drop_of_length_le (by simp; omega), List.nil_append]
  · rw [List.take_append_of_le_length (by simp; omega), List.take_of_length_le (by simp; omega)]
    rfl

theorem not_faulty_replyChars {node : Node} {kind : Byte} {payload : List Byte} {f : ReplyFields}
    (hk : kindAllowed node kind = true) (hl : lengthAllowed kind payload.length = true)
    (hf : parseFields kind payload = some f) : ¬ ReplyFaulty node (replyChars node kind payload) false false := by
  have h24 : payload.length ≤ 24 := by
    by_contra hlt
    rw [lengthAllowed_eq_false.mpr (.inl (Nat.lt_of_not_le hlt))] at hl
    exact nomatch hl
  have hsize := replySize_replyChars node kind h24
  obtain ⟨hbody, hcrc, hpay⟩ := dataBytes_replyChars node kind payload
  have hn : 5 + payload.length - 2 = 3 + payload.length := by omega
  have body : ∀ {i : Nat} {c : BusChar}, (replyChars node kind payload)[i]? = some c →
      c.framing = false ∧ (0 < i → c.mark = false) := by
    intro i c hi
    cases i with
    | zero => cases hi; exact ⟨rfl, fun h => absurd h (Nat.lt_irrefl 0)⟩
    | succ i =>
      have hi' : (((kind :: num1 payload.length :: payload)
        ++ word16 (crc16 (kind :: num1 payload.length :: payload))).map fun b =>
          ({ data := b, mark := false, framing := false } : BusChar))[i]? = some c := hi
      obtain ⟨b, -, rfl⟩ := List.mem_map.mp (List.mem_of_getElem? hi')
      exact ⟨rfl, fun _ => rfl⟩
  have kind_eq : ∀ {k}, hasKind (replyChars node kind payload) k → k = kind := by
    rintro k ⟨c, hc, rfl⟩
    cases hc; rfl
  unfold ReplyFaulty
  rintro (⟨i, c, ⟨hi, -⟩, hfr⟩ | ⟨c, hc, hbad⟩ | ⟨i, c, hpos, ⟨hi, -⟩, hm⟩ | ⟨k, c, hkind, hc, hbad⟩ | ⟨n, hs, -, hne⟩
    | ⟨k, hkind, hbad⟩ | ⟨n, k, hs, -, hkind, hnone⟩ | h | h)
  · rw [(body hi).1] at hfr; exact nomatch hfr
  · cases hc
    rcases hbad with hbad | hbad
    · exact nomatch hbad
    · exact hbad (toNat_num1 (address_lt node))
  · rw [(body hi).2 hpos] at hm; exact nomatch hm
  · cases hc
    rw [kind_eq hkind, show (num1 payload.length).toNat = payload.length from toNat_num1 (by omega),
      ← lengthAllowed_eq_false, hl] at hbad
    exact nomatch hbad
  · rw [hsize] at hs
    cases hs
    rw [hn, hbody, hcrc] at hne
    exact hne rfl
  · rw [kind_eq hkind, ← kindAllowed_eq_false, hk] at hbad
    exact nomatch hbad
  · rw [hsize] at hs
    cases hs
    rw [hn, hpay, kind_eq hkind, hf] at hnone
    exact nomatch hnone
  · exact nomatch h
  · exact nomatch h

/-- Settles O38. -/
theorem replyFieldsRead : Obligations.ReplyFieldsRead := by
  unfold Obligations.ReplyFieldsRead
  refine ⟨fun node kind payload f hk hl hf => ?_, fun cls ms prog ph flags rem fault echo out reason more =>
    ⟨parseFields_state_eq_none .., fun f hf => ?_⟩, fun echo more => ⟨echo.setWidth 4, rfl, BitVec.toNat_setWidth ..⟩,
    fun echo tag pos prog opts mins id more => ⟨echo.setWidth 4,
      { reqTag := tag, cardId := id, position := pos, program := prog, options := opts.setWidth 4, minutes := mins },
      ?_, BitVec.toNat_setWidth .., rfl, rfl, rfl, rfl, BitVec.toNat_setWidth .., rfl⟩,
    fun t rest => ⟨busChars_cons_mark rest, busChars_cons_break rest, fun h0 i _ hi =>
      ⟨sampleChar t, busChars_cons_char rest h0 hi, sampleChar_data t, rfl, rfl⟩⟩,
    fun node chars gap broken => ⟨?_, classify_of_faulty, classify_of_valid⟩⟩
  · have h24 : payload.length ≤ 24 := by
      by_contra hlt
      rw [lengthAllowed_eq_false.mpr (.inl (Nat.lt_of_not_le hlt))] at hl
      exact nomatch hl
    have hsize := replySize_replyChars node kind h24
    have hc : replyIsComplete (replyChars node kind payload) = true :=
      replyIsComplete_iff.mpr ⟨_, hsize, (length_replyChars ..).ge⟩
    refine ⟨hc, ?_, fun n hlt => ?_⟩
    · obtain ⟨n, k, g, hs, ⟨c, hc1, rfl⟩, hg, hclass⟩ := classify_of_valid hc (not_faulty_replyChars hk hl hf)
      rw [hsize] at hs
      cases hs
      cases hc1
      rw [show 5 + payload.length - 2 = 3 + payload.length by omega, (dataBytes_replyChars node kind payload).2.2] at hg
      rw [hclass]
      exact hg.symm.trans hf
    · refine Bool.eq_false_iff.mpr fun hcut => ?_
      obtain ⟨m, hm, hle⟩ := replyIsComplete_iff.mp hcut
      obtain ⟨c, hc2, rfl, -⟩ := replySize_eq_some hm
      rw [List.getElem?_take] at hc2
      split at hc2
      · cases hc2
        have : (num1 payload.length).toNat = payload.length := toNat_num1 (by omega)
        rw [length_replyChars] at hlt
        rw [List.length_take] at hle
        dsimp only at hle
        omega
      · exact nomatch hc2
  · rw [parseFields_state] at hf
    simp only [Option.bind_eq_some_iff, Option.some.injEq] at hf
    obtain ⟨c, hc, m, hm, h, hh, o, ho, rfl⟩ := hf
    refine ⟨_, rfl, MachineClass.code_of_ofCode hc, MachineState.code_of_ofCode hm, Phase.code_of_ofCode hh, rfl, rfl, rfl,
      toNat_min_254 rem, toNat_min_15 fault, BitVec.toNat_setWidth .., fun hout => ?_, fun hout => ?_⟩
    · rw [hout] at ho
      cases ho
      rfl
    · rw [hout, OrderOutcome.ofCodes, if_neg (by decide), if_pos rfl, Option.map_eq_some_iff] at ho
      obtain ⟨r, hr, rfl⟩ := ho
      exact congrArg OrderOutcome.refused (RefusalReason.ofCode_of_some hr)
  · exact congrArg (fun i => some (ReplyFields.card (echo.setWidth 4)
      (CardRequest.mk tag i pos prog (opts.setWidth 4) mins)))
      (joinId_idBytes id)
  · cases h : replySize chars with
    | none => exact .inl rfl
    | some n =>
      obtain ⟨c, hc, rfl, -⟩ := replySize_eq_some h
      exact .inr ⟨c, hc, rfl⟩

end Sys2Proof.Machine
end

section
/-! The visits: the frame of a visit and its layout (R1 to R3, R12, R13, R16, R17, R193 to R195). -/

namespace Sys2Proof.Machine

variable {s t : State}

/-! ## Layouts -/

theorem word16_eq (w : BitVec 16) : word16 w = [BitVec.ofNat 8 (w.toNat / 256), BitVec.ofNat 8 w.toNat] := by
  have high := extract_byte w 1
  have low := extract_byte w 0
  rw [Nat.pow_zero, Nat.div_one] at low
  rw [word16, high, low]
  rfl

theorem charTime_positions (c : BusChar) :
    (charTime c).getLsbD 0 = false ∧ (∀ i < 8, (charTime c).getLsbD (i + 1) = c.data.getLsbD i)
      ∧ (charTime c).getLsbD 9 = c.mark ∧ (charTime c).getLsbD 10 = !c.framing := by
  have all : ∀ (d : Byte) (m f : Bool), (charTime ⟨d, m, f⟩).getLsbD 0 = false
      ∧ (∀ i < 8, (charTime ⟨d, m, f⟩).getLsbD (i + 1) = d.getLsbD i) ∧ (charTime ⟨d, m, f⟩).getLsbD 9 = m
      ∧ (charTime ⟨d, m, f⟩).getLsbD 10 = !f := by
    decide +kernel
  exact all c.data c.mark c.framing

theorem crcBit_eq (c : BitVec 16) : crcBit c = if c.msb then (c <<< 1) ^^^ 0x1021#16 else c <<< 1 := by
  rw [crcBit, BitVec.msb_eq_getLsbD_last]

theorem crcByte_eq (c : BitVec 16) (b : Byte) : crcByte c b = crcBit^[8] (c ^^^ (b.setWidth 16 <<< 8)) := rfl

/-- The bytes of an order (R194). -/
theorem options_byte (o : OptionSet) : o.setWidth 8 = BitVec.ofNat 8 o.toNat := by
  apply BitVec.eq_of_toNat_eq
  simp

/-! ## Packed text -/

/-- The two bytes of a group of three symbols, the last group filled with 0 (R195). -/
def symbolAt (xs : List Nat) (i : Nat) : Nat := xs[i]?.getD 0
def groupAt (xs : List Nat) (k : Nat) : Nat :=
  symbolAt xs (3 * k) * 1600 + symbolAt xs (3 * k + 1) * 40 + symbolAt xs (3 * k + 2)

theorem groupAt_cons3 (a b c : Nat) (rest : List Nat) (k : Nat) :
    groupAt (a :: b :: c :: rest) (k + 1) = groupAt rest k := by
  have shift : ∀ i, symbolAt (a :: b :: c :: rest) (i + 3) = symbolAt rest i := fun i => by
    simp [symbolAt]
  rw [groupAt, show 3 * (k + 1) = 3 * k + 3 by omega, show 3 * k + 3 + 1 = 3 * k + 1 + 3 by omega,
    show 3 * k + 3 + 2 = 3 * k + 2 + 3 by omega, shift, shift, shift, groupAt]

theorem packSymbols_eq (xs : List Nat) :
    packSymbols xs = (List.range ((xs.length + 2) / 3)).flatMap fun k => num2 (groupAt xs k) := by
  induction xs using packSymbols.induct with
  | case1 => rfl
  | case2 a => simp [packSymbols, groupAt, symbolAt]
  | case3 a b => simp [packSymbols, groupAt, symbolAt]
  | case4 a b c rest ih =>
    rw [packSymbols, ih, show ((a :: b :: c :: rest).length + 2) / 3 = (rest.length + 2) / 3 + 1 by simp; omega,
      List.range_succ_eq_map, List.flatMap_cons, List.flatMap_map]
    congr 1

/-- The symbol of a character of the set, and 0 for any other (R195). -/
theorem textSymbol_getD (b : Byte) : (textSymbol b).getD 0
    = if b.toNat = 0x20 then 1
      else if b.toNat = 0x2D then 39
      else if b.toNat = 0x2E then 38
      else if 0x30 ≤ b.toNat ∧ b.toNat ≤ 0x39 then b.toNat - 0x30 + 28
      else if 0x41 ≤ b.toNat ∧ b.toNat ≤ 0x5A then b.toNat - 0x41 + 2
      else if 0x61 ≤ b.toNat ∧ b.toNat ≤ 0x7A then b.toNat - 0x61 + 2
      else 0 := by
  simp only [textSymbol, apply_ite (fun o : Option Nat => o.getD 0), Option.getD_some, Option.getD_none]

/-! ## Answers -/

theorem opt3_eq (n : Option Nat) : opt3 n
    = match n with
      | none => [0xFF#8, 0xFF#8, 0xFF#8]
      | some n => [BitVec.ofNat 8 (n / 65536), BitVec.ofNat 8 (n / 256), BitVec.ofNat 8 n] := by
  cases n with
  | none => rfl
  | some n => exact num3_eq n

/-! ## A visit -/

theorem fillSlots_of_offer {k : Nat} {u : State} {node : Node} (h : offer s.candidates s = (u, some node)) :
    fillSlots (k + 1) s = (u.setBus fun b => { b with slot := b.slot.next }, some node) := by
  rw [fillSlots, h]

theorem startVisit_of_offer {u : State} {node : Node} (hne : s.candidates ≠ [])
    (h : offer s.candidates s = (u, some node)) :
    startVisit s = beginVisit node (u.setBus fun b => { b with slot := b.slot.next }) := by
  unfold startVisit
  rw [if_neg, fillSlots_of_offer h]
  intro hempty
  rw [Bool.and_eq_true] at hempty
  refine hne ?_
  rw [State.candidates, State.machineSlot, if_pos hempty.2, if_pos rfl, List.isEmpty_iff.mp hempty.1]
  cases s.bus.machinePtr <;> rfl

theorem offer_present {node : Node} {rest : List Node} (h : (s.nodeBus node).presence ≠ .lost) :
    offer (node :: rest) s = (s, some node) := by
  rw [offer]
  exact if_pos (by simpa using h)

theorem exec_visit (hl : s.live = true) (hv : s.bus.visit = none) (hlisten : s.bus.listening = true)
    (hj : s.bus.jammed = false) : exec .visit s = .next (startVisit s.fresh) := by
  change execVisit s = _
  rw [execVisit, taking_of_live _ hl, if_pos (by simp [State.mayVisit, hv, hlisten, hj])]

/-- A visit to the head of the candidates, which is not LOST (R12, R13). -/
theorem exec_visit_of_head {node : Node} {rest : List Node} (hl : s.live = true) (hv : s.bus.visit = none)
    (hlisten : s.bus.listening = true) (hj : s.bus.jammed = false) (hc : s.candidates = node :: rest)
    (hp : (s.nodeBus node).presence ≠ .lost) :
    exec .visit s = .next (beginVisit node (s.fresh.setBus fun b => { b with slot := b.slot.next })) := by
  have hc' : s.fresh.candidates = node :: rest := hc
  rw [exec_visit hl hv hlisten hj, startVisit_of_offer (s := s.fresh) (by rw [hc']; exact nofun)
    (by rw [hc']; exact offer_present hp)]

theorem loadMachineVisit_ask {p : PosIx} (h : (s.vol p).bus.learned = false ∨ (s.vol p).orders = []) :
    loadMachineVisit p s = (s, askFrame (.machine p), none) := by
  unfold loadMachineVisit
  dsimp only
  split
  · next hl ho =>
    rcases h with h | h
    · rw [h] at hl; exact nomatch hl
    · rw [h] at ho; exact nomatch ho
  · rfl

theorem loadMachineVisit_order {p : PosIx} {o : Order} {os : List Order} (hl : (s.vol p).bus.learned = true)
    (ho : (s.vol p).orders = o :: os) :
    loadMachineVisit p s
      = (let t := o.tag.getD ((s.vol p).bus.counter + 1#4)
         (s.setVol p fun v =>
            { v with
              orders := { o with tag := some t } :: os
              bus := { v.bus with counter := if o.tag.isSome then v.bus.counter else t } },
          orderFrame p o.body t, some t)) := by
  unfold loadMachineVisit
  dsimp only
  rw [hl, ho]
  rfl

theorem loadTerminalVisit_ask {x : TermIx} (h : (s.terminal x).bus.learned = false ∨ (s.terminal x).outbox = []) :
    loadTerminalVisit x s = (s, askFrame (.terminal x), none) := by
  unfold loadTerminalVisit
  dsimp only
  split
  · next hl ho =>
    rcases h with h | h
    · rw [h] at hl; exact nomatch hl
    · rw [h] at ho; exact nomatch ho
  · rfl

theorem loadTerminalVisit_item {x : TermIx} {i : Item} {is : List Item} (hl : (s.terminal x).bus.learned = true)
    (ho : (s.terminal x).outbox = i :: is) :
    loadTerminalVisit x s
      = (let t := i.tag.getD ((s.terminal x).bus.counter + 1#4)
         (s.setTerm x fun v =>
            { v with
              outbox := { i with tag := some t } :: is
              bus := { v.bus with counter := if i.tag.isSome then v.bus.counter else t } },
          itemFrame x i.body t, some t)) := by
  unfold loadTerminalVisit
  dsimp only
  rw [hl, ho]
  rfl

/-- The bus with a visit begun (R2, R3, R13). -/
def BusState.begun (b : BusState) (visit : Visit) (m : Option PosIx) (x : Option TermIx) : BusState :=
  { b with machinePtr := m, terminalPtr := x, space := none, visit := some visit }

theorem beginVisit_machine {p : PosIx} {w : State} {frame : List BusChar} {tag : Option ItemTag}
    (h : loadMachineVisit p s = (w, frame, tag)) :
    beginVisit (.machine p) s = w.setBus fun b => b.begun
      { node := .machine p, tag := tag, frame := frame.map charTime, rate := w.ret.config.busRate, phase := .sending,
        removed := false } (some p) b.terminalPtr := by
  unfold beginVisit
  dsimp only
  rw [h]
  rfl

theorem beginVisit_terminal {x : TermIx} {w : State} {frame : List BusChar} {tag : Option ItemTag}
    (h : loadTerminalVisit x s = (w, frame, tag)) :
    beginVisit (.terminal x) s = w.setBus fun b => b.begun
      { node := .terminal x, tag := tag, frame := frame.map charTime, rate := w.ret.config.busRate, phase := .sending,
        removed := false } b.machinePtr (some x) := by
  unfold beginVisit
  dsimp only
  rw [h]
  rfl

/-- The state in which the visit's frame is chosen: the slot has moved on. -/
def State.slotMoved (s : State) : State := s.fresh.setBus fun b => { b with slot := b.slot.next }

/-- Settles O32. -/
theorem visitSendsHeadItem : Obligations.VisitSendsHeadItem := by
  unfold Obligations.VisitSendsHeadItem
  refine ⟨?_, fun node kind payload => ?_, charTime_positions, ⟨rfl, fun bs b => ?_, by decide +kernel⟩,
    fun program minutes options => ⟨?_, rfl, rfl⟩, fun a busy => ?_, fun chars => ?_⟩
  · intro s node rest hl hv hlisten hj hc hp begun
    refine ⟨?_, ?_⟩
    · rintro p rfl v
      have begin := exec_visit_of_head hl hv hlisten hj hc hp
      refine ⟨fun hask => ?_, fun o os hlearned ho => ?_⟩
      · exact begin.trans (congrArg _ (beginVisit_machine (loadMachineVisit_ask (s := s.slotMoved) hask)))
      · exact begin.trans (congrArg _ (beginVisit_machine (loadMachineVisit_order (s := s.slotMoved) hlearned ho)))
    · rintro x rfl v
      have begin := exec_visit_of_head hl hv hlisten hj hc hp
      refine ⟨fun hask => ?_, fun i is hlearned ho => ?_⟩
      · exact begin.trans (congrArg _ (beginVisit_terminal (loadTerminalVisit_ask (s := s.slotMoved) hask)))
      · exact begin.trans (congrArg _ (beginVisit_terminal (loadTerminalVisit_item (s := s.slotMoved) hlearned ho)))
  · rw [busFrame, word16_eq]
    cases node <;> rfl
  · have step : (fun c : BitVec 16 => if c.msb then (c <<< 1) ^^^ 0x1021#16 else c <<< 1) = crcBit :=
      funext fun c => (crcBit_eq c).symm
    rw [crc16, List.foldl_append]
    simp only [step]
    rfl
  · rw [OrderBody.bytes, options_byte]
    rfl
  · refine ⟨flag1 a.decline.isSome, num1 ((a.decline.map DeclineReason.code).getD 0), ?_, fun hnone => ?_,
      fun i why hi hwhy => ?_⟩
    · rw [ItemBody.bytes, Answer.bytes, num3_eq, opt3_eq, options_byte]
      rfl
    · rw [hnone]
      exact ⟨rfl, rfl⟩
    · rw [hwhy]
      refine ⟨rfl, ?_⟩
      rw [Option.map_some, Option.getD_some, num1]
      have code : why.code = i + 1 := by
        have all : ∀ why : DeclineReason, ∀ i < 16, ([.noSuchMachine, .unknownCard, .cardBlocked, .roomClosed,
            .machineUnavailable, .machineBusy, .noSuchProgram, .machineNotReady, .settlementFull, .roomAtCapacity,
            .insufficientFunds, .dailyLimit, .topupAtMaximum, .machineNoResponse, .machineFault,
            .terminalBusy] : List DeclineReason)[i]? = some why → why.code = i + 1 := by
          intro why
          cases why <;> decide
        obtain ⟨hlt, -⟩ := List.getElem?_eq_some_iff.mp hi
        exact all why i hlt hi
      rw [code]
  · rw [ItemBody.bytes, packText, packSymbols_eq, List.length_map]
    have symbols : ∀ i, symbolAt (chars.map fun b => (textSymbol b).getD 0) i
        = (chars[i]?.map fun b => (textSymbol b).getD 0).getD 0 := fun i => by rw [symbolAt, List.getElem?_map]
    simp only [num2_eq, groupAt, symbols]
    simp only [textSymbol_getD, num1]

end Sys2Proof.Machine
end

section
/-! The order in which slots are offered, and LOST nodes that pass their turn (R12 to R14). -/

namespace Sys2Proof.Machine

variable {s t : State}

/-! ## The nodes in order -/

theorem allPositions_rising : allPositions.Pairwise (· < ·) := by decide
theorem allTerminals_rising : allTerminals.Pairwise (· < ·) := by decide

theorem mem_machines {p : PosIx} : p ∈ s.machines ↔ s.configured p = true := by
  simp [State.machines, mem_allPositions]

theorem mem_terminals {x : TermIx} : x ∈ s.terminals ↔ s.termConfigured x = true := by
  simp [State.terminals, mem_allTerminals]

theorem machines_rising (s : State) : s.machines.Pairwise (· < ·) := allPositions_rising.filter _
theorem terminals_rising (s : State) : s.terminals.Pairwise (· < ·) := allTerminals_rising.filter _

/-- The nodes above the pointer, and those from the lowest up to it (R13). -/
def abovePointer {n : Nat} (ptr : Option (Fin n)) (xs : List (Fin n)) : List (Fin n) :=
  xs.filter fun x => ptr.all fun a => a < x
def belowPointer {n : Nat} (ptr : Option (Fin n)) (xs : List (Fin n)) : List (Fin n) :=
  xs.filter fun x => ptr.any fun a => x ≤ a

theorem fromPointer_eq {n : Nat} (ptr : Option (Fin n)) (xs : List (Fin n)) :
    fromPointer ptr xs = abovePointer ptr xs ++ belowPointer ptr xs := by
  cases ptr <;> simp [fromPointer, abovePointer, belowPointer]

theorem mem_abovePointer {n : Nat} {ptr : Option (Fin n)} {xs : List (Fin n)} {x : Fin n} :
    x ∈ abovePointer ptr xs ↔ x ∈ xs ∧ ∀ a, ptr = some a → a < x := by
  simp [abovePointer, Option.all_eq_true]

theorem mem_belowPointer {n : Nat} {ptr : Option (Fin n)} {xs : List (Fin n)} {x : Fin n} :
    x ∈ belowPointer ptr xs ↔ x ∈ xs ∧ ∃ a, ptr = some a ∧ x ≤ a := by
  simp [belowPointer, Option.any_eq_true]

theorem mem_fromPointer {n : Nat} {ptr : Option (Fin n)} {xs : List (Fin n)} {x : Fin n} :
    x ∈ fromPointer ptr xs ↔ x ∈ xs := by
  rw [fromPointer_eq, List.mem_append, mem_abovePointer, mem_belowPointer, ← and_or_left, and_iff_left]
  cases ptr with
  | none => exact .inl fun _ h => nomatch h
  | some a => exact (lt_or_ge a x).imp (fun h _ hb => by cases hb; exact h) fun h => ⟨a, rfl, h⟩

theorem nodup_fromPointer {n : Nat} (ptr : Option (Fin n)) {xs : List (Fin n)} (h : xs.Nodup) :
    (fromPointer ptr xs).Nodup := by
  rw [fromPointer_eq]
  refine (h.filter _).append (h.filter _) fun x ha hb => ?_
  obtain ⟨-, habove⟩ := mem_abovePointer.mp ha
  obtain ⟨-, a, hp, hle⟩ := mem_belowPointer.mp hb
  exact absurd (habove a hp) (not_lt.mpr hle)

/-- The head of the order: the least above the pointer, or the least of all (R13). -/
theorem head_fromPointer {n : Nat} {ptr : Option (Fin n)} {xs : List (Fin n)} (hx : xs.Pairwise (· < ·)) {x : Fin n}
    {rest : List (Fin n)} (h : fromPointer ptr xs = x :: rest) :
    x ∈ xs ∧ (((∀ a, ptr = some a → a < x) ∧ ∀ y ∈ xs, (∀ a, ptr = some a → a < y) → x ≤ y)
      ∨ ((∀ y ∈ xs, ¬ ∀ a, ptr = some a → a < y) ∧ ∀ y ∈ xs, x ≤ y)) := by
  have least : ∀ {ys : List (Fin n)}, ys.Pairwise (· < ·) → ∀ {z zs}, ys = z :: zs → ∀ y ∈ ys, z ≤ y := by
    rintro ys hys z zs rfl y hy
    rcases List.mem_cons.mp hy with rfl | hy
    · exact le_refl _
    · exact ((List.pairwise_cons.mp hys).1 y hy).le
  refine ⟨mem_fromPointer.mp (by rw [h]; exact List.mem_cons_self), ?_⟩
  rw [fromPointer_eq] at h
  cases habove : abovePointer ptr xs with
  | cons z zs =>
    rw [habove] at h
    obtain ⟨rfl, -⟩ := List.cons.inj h
    refine .inl ⟨(mem_abovePointer.mp (by rw [habove]; exact List.mem_cons_self)).2, fun y hy hya => ?_⟩
    exact least (hx.filter _) habove y (mem_abovePointer.mpr ⟨hy, hya⟩)
  | nil =>
    rw [habove] at h
    have none_above : ∀ y ∈ xs, ¬ ∀ a, ptr = some a → a < y := fun y hy hya => by
      have := mem_abovePointer.mpr ⟨hy, hya⟩
      rw [habove] at this
      exact nomatch this
    refine .inr ⟨none_above, fun y hy => least (hx.filter _) h y (mem_belowPointer.mpr ⟨hy, ?_⟩)⟩
    have hnot := none_above y hy
    push Not at hnot
    exact hnot

theorem candidates_machine (h : s.machineSlot = true) :
    s.candidates = (fromPointer s.bus.machinePtr s.machines).map .machine := if_pos h

theorem candidates_terminal (h : s.machineSlot = false) :
    s.candidates = (fromPointer s.bus.terminalPtr s.terminals).map .terminal :=
  if_neg (by rw [h]; exact Bool.false_ne_true)

theorem machineSlot_iff : s.machineSlot = true
    ↔ s.terminals = [] ∨ (s.machines ≠ [] ∧ s.bus.slot ≠ .terminal) := by
  unfold State.machineSlot
  by_cases h1 : s.terminals = []
  · simp [h1]
  · by_cases h2 : s.machines = [] <;> simp [h1, h2]

theorem candidates_eq_nil : s.candidates = [] ↔ s.machines = [] ∧ s.terminals = [] := by
  have empty : ∀ {n : Nat} {ptr : Option (Fin n)} {xs : List (Fin n)}, fromPointer ptr xs = [] ↔ xs = [] := by
    intro n ptr xs
    simp only [List.eq_nil_iff_forall_not_mem, mem_fromPointer]
  cases h : s.machineSlot with
  | true =>
    rw [candidates_machine h, List.map_eq_nil_iff, empty]
    rcases machineSlot_iff.mp h with h | ⟨h, -⟩ <;> simp [h]
  | false =>
    rw [candidates_terminal h, List.map_eq_nil_iff, empty]
    have hnot : ¬ (s.terminals = [] ∨ (s.machines ≠ [] ∧ s.bus.slot ≠ .terminal)) := fun hc => by
      rw [machineSlot_iff.mpr hc] at h; exact nomatch h
    push Not at hnot
    simp [hnot.1]

theorem nodup_candidates (s : State) : s.candidates.Nodup := by
  cases h : s.machineSlot with
  | true =>
    rw [candidates_machine h]
    exact (nodup_fromPointer _ ((machines_rising s).imp ne_of_lt)).map fun _ _ h => Node.machine.inj h
  | false =>
    rw [candidates_terminal h]
    exact (nodup_fromPointer _ ((terminals_rising s).imp ne_of_lt)).map fun _ _ h => Node.terminal.inj h

theorem configured_of_mem_candidates {x : Node} (h : x ∈ s.candidates) : s.nodeConfigured x = true := by
  cases hs : s.machineSlot with
  | true =>
    rw [candidates_machine hs] at h
    obtain ⟨p, hp, rfl⟩ := List.mem_map.mp h
    exact mem_machines.mp (mem_fromPointer.mp hp)
  | false =>
    rw [candidates_terminal hs] at h
    obtain ⟨p, hp, rfl⟩ := List.mem_map.mp h
    exact mem_terminals.mp (mem_fromPointer.mp hp)

/-! ## Nodes that pass -/

theorem nodeBus_setNodeBus (x y : Node) (f : NodeBus → NodeBus) (s : State) :
    (s.setNodeBus x f).nodeBus y = if x = y then f (s.nodeBus x) else s.nodeBus y := by
  cases x with
  | machine p =>
    cases y with
    | machine q =>
      rw [State.setNodeBus, State.nodeBus, State.vol_setVol]
      by_cases h : p = q <;> simp [h, State.nodeBus]
    | terminal y => exact (if_neg nofun).symm
  | terminal x =>
    cases y with
    | machine q => exact (if_neg nofun).symm
    | terminal y =>
      rw [State.setNodeBus, State.nodeBus, State.terminal_setTerm]
      by_cases h : x = y <;> simp [h, State.nodeBus]

/-- A LOST node that passes its turn (R14). -/
def NodeBus.passed (b : NodeBus) : NodeBus := { b with skip := b.skip + 1 }

/-- A node that passes the slot: LOST with a skip count below 7. -/
def State.passes (s : State) (x : Node) : Prop := (s.nodeBus x).presence = .lost ∧ (s.nodeBus x).skip < 7

/-- Some nodes pass, one after the other. -/
def passAll (nodes : List Node) (s : State) : State := nodes.foldl (fun s x => s.setNodeBus x NodeBus.passed) s

theorem nodeBus_passAll {nodes : List Node} (h : nodes.Nodup) (y : Node) (s : State) :
    (passAll nodes s).nodeBus y = if y ∈ nodes then (s.nodeBus y).passed else s.nodeBus y := by
  induction nodes generalizing s with
  | nil => rfl
  | cons x xs ih =>
    obtain ⟨hx, hxs⟩ := List.nodup_cons.mp h
    rw [passAll, List.foldl_cons, ← passAll, ih hxs, nodeBus_setNodeBus]
    by_cases hy : x = y
    · subst hy; simp [hx]
    · simp [hy, Ne.symm hy]

/-- A slot that some nodes pass goes on to the rest. -/
theorem offer_append {before : List Node} (rest : List Node) (hnd : before.Nodup) (h : ∀ x ∈ before, s.passes x) :
    offer (before ++ rest) s = offer rest (passAll before s) := by
  induction before generalizing s with
  | nil => rfl
  | cons x xs ih =>
    obtain ⟨hx, hxs⟩ := List.nodup_cons.mp hnd
    obtain ⟨⟨hlost, hskip⟩, hrest⟩ := List.forall_mem_cons.mp h
    rw [List.cons_append, offer]
    rw [if_neg (by simp [hlost]), if_neg (Nat.not_le.mpr hskip)]
    refine ih hxs fun y hy => ?_
    have same : (s.setNodeBus x NodeBus.passed).nodeBus y = s.nodeBus y :=
      (nodeBus_setNodeBus ..).trans (if_neg (by rintro rfl; exact hx hy))
    change ((s.setNodeBus x NodeBus.passed).nodeBus y).presence = _
      ∧ ((s.setNodeBus x NodeBus.passed).nodeBus y).skip < 7
    rw [same]
    exact hrest y hy

/-- The first node that does not pass takes the slot. -/
theorem offer_taken {before after : List Node} {node : Node} (hnd : (before ++ node :: after).Nodup)
    (h : ∀ x ∈ before, s.passes x) (hnode : ¬ s.passes node) :
    offer (before ++ node :: after) s
      = (if (s.nodeBus node).presence = .lost then (passAll before s).setNodeBus node fun b => { b with skip := 0 }
         else passAll before s, some node) := by
  obtain ⟨hbefore, -, hdisj⟩ := List.nodup_append.mp hnd
  have hout : node ∉ before := fun hm => hdisj node hm node List.mem_cons_self rfl
  have same : (passAll before s).nodeBus node = s.nodeBus node := (nodeBus_passAll hbefore ..).trans (if_neg hout)
  rw [offer_append _ hbefore h, offer]
  rw [same]
  by_cases hl : (s.nodeBus node).presence = .lost
  · rw [if_neg (by simp [hl]), if_pos (by by_contra hlt; exact hnode ⟨hl, Nat.lt_of_not_le hlt⟩), if_pos hl]
  · rw [if_pos (by simpa using hl), if_neg hl]

theorem offer_none {nodes : List Node} (hnd : nodes.Nodup) (h : ∀ x ∈ nodes, s.passes x) :
    offer nodes s = (passAll nodes s, none) := by
  have := offer_append (s := s) [] hnd h
  rwa [List.append_nil] at this

/-- Either every node passes, or there is a first that does not. -/
theorem passes_or_split (nodes : List Node) (s : State) : (∀ x ∈ nodes, s.passes x)
    ∨ ∃ before node after, nodes = before ++ node :: after ∧ (∀ x ∈ before, s.passes x) ∧ ¬ s.passes node := by
  induction nodes with
  | nil => exact .inl nofun
  | cons x xs ih =>
    by_cases hx : s.passes x
    · rcases ih with hall | ⟨before, node, after, rfl, hb, hn⟩
      · exact .inl (List.forall_mem_cons.mpr ⟨hx, hall⟩)
      · exact .inr ⟨x :: before, node, after, rfl, List.forall_mem_cons.mpr ⟨hx, hb⟩, hn⟩
    · exact .inr ⟨[], x, xs, rfl, nofun, hx⟩

/-! ## What passing leaves -/

theorem setNodeBus_eq (x : Node) (f : NodeBus → NodeBus) (s : State) :
    s.setNodeBus x f = { s with pos := (s.setNodeBus x f).pos, term := (s.setNodeBus x f).term } := by
  cases x <;> rfl

theorem passAll_eq (nodes : List Node) (s : State) :
    passAll nodes s = { s with pos := (passAll nodes s).pos, term := (passAll nodes s).term } := by
  induction nodes generalizing s with
  | nil => rfl
  | cons x xs ih =>
    rw [passAll, List.foldl_cons, ← passAll]
    refine (ih _).trans ?_
    rw [setNodeBus_eq x NodeBus.passed s]

theorem vol_setNodeBus (x : Node) (f : NodeBus → NodeBus) (s : State) (p : PosIx) :
    (s.setNodeBus x f).vol p = { s.vol p with bus := (s.setNodeBus x f).nodeBus (.machine p) } := by
  cases x with
  | machine q =>
    rw [State.setNodeBus, State.nodeBus, State.vol_setVol]
    by_cases h : q = p
    · subst h; simp
    · simp [h]
  | terminal y => rfl

theorem terminal_setNodeBus (x : Node) (f : NodeBus → NodeBus) (s : State) (y : TermIx) :
    (s.setNodeBus x f).terminal y = { s.terminal y with bus := (s.setNodeBus x f).nodeBus (.terminal y) } := by
  cases x with
  | machine q => rfl
  | terminal z =>
    rw [State.setNodeBus, State.nodeBus, State.terminal_setTerm]
    by_cases h : z = y
    · subst h; simp
    · simp [h]

theorem vol_passAll (nodes : List Node) (s : State) (p : PosIx) :
    (passAll nodes s).vol p = { s.vol p with bus := (passAll nodes s).nodeBus (.machine p) } := by
  induction nodes generalizing s with
  | nil => rfl
  | cons x xs ih =>
    rw [passAll, List.foldl_cons, ← passAll, ih, vol_setNodeBus]

theorem terminal_passAll (nodes : List Node) (s : State) (y : TermIx) :
    (passAll nodes s).terminal y = { s.terminal y with bus := (passAll nodes s).nodeBus (.terminal y) } := by
  induction nodes generalizing s with
  | nil => rfl
  | cons x xs ih =>
    rw [passAll, List.foldl_cons, ← passAll, ih, terminal_setNodeBus]

/-! ## The slots that follow -/

/-- A slot that all pass: each has its skip count raised, and the next slot is filled (R12, R14). -/
def State.slotPassed (s : State) : State := (passAll s.candidates s).setBus fun b => { b with slot := b.slot.next }

theorem slotPassed_eq (s : State) : s.slotPassed = { s with
    pos := s.slotPassed.pos, term := s.slotPassed.term, bus := { s.bus with slot := s.bus.slot.next } } := by
  unfold State.slotPassed
  rw [passAll_eq]
  rfl

theorem nodeBus_slotPassed (x : Node) (s : State) :
    s.slotPassed.nodeBus x = if x ∈ s.candidates then (s.nodeBus x).passed else s.nodeBus x := by
  rw [← nodeBus_passAll (nodup_candidates s) x s]
  cases x <;> rfl

/-- What a slot that all pass leaves of the configuration and the places. -/
structure SlotMoved (s t : State) : Prop where
  ret : t.ret = s.ret
  slot : t.bus.slot = s.bus.slot.next

theorem slotMoved_slotPassed (s : State) : SlotMoved s s.slotPassed := by
  constructor <;> rw [slotPassed_eq]

theorem machines_of_ret (h : t.ret = s.ret) : t.machines = s.machines := by
  unfold State.machines
  congr 1
  funext p
  rw [State.configured, State.configured, State.record, State.record, h]

theorem terminals_of_ret (h : t.ret = s.ret) : t.terminals = s.terminals := by
  unfold State.terminals
  congr 1
  funext p
  rw [State.termConfigured, State.termConfigured, h]

theorem fillSlots_passed {k : Nat} (h : ∀ x ∈ s.candidates, s.passes x) :
    fillSlots (k + 1) s = fillSlots k s.slotPassed := by
  rw [fillSlots, offer_none (nodup_candidates s) h]
  rfl

/-- How many slots may still pass a node at most: those before the next slot of its kind, and two for each turn it may
still pass. -/
def slotsLeft (s : State) (x : Node) : Nat :=
  2 * (7 - (s.nodeBus x).skip) + if x ∈ s.candidates then 0 else 1

/-- A node that is offered every slot of its kind: a machine, or a terminal where no machine is configured. -/
def State.regular (s : State) (x : Node) : Prop :=
  (∃ p, x = .machine p ∧ p ∈ s.machines) ∨ ∃ y, x = .terminal y ∧ y ∈ s.terminals ∧ s.machines = []

theorem exists_regular (h : s.candidates ≠ []) : ∃ x, s.regular x := by
  cases hm : s.machines with
  | cons p rest => exact ⟨.machine p, .inl ⟨p, rfl, by rw [hm]; exact List.mem_cons_self⟩⟩
  | nil =>
    cases hx : s.terminals with
    | nil => exact absurd (candidates_eq_nil.mpr ⟨hm, hx⟩) h
    | cons y rest => exact ⟨.terminal y, .inr ⟨y, rfl, by rw [hx]; exact List.mem_cons_self, hm⟩⟩

theorem State.regular.of_ret {x : Node} (h : s.regular x) (hret : t.ret = s.ret) : t.regular x := by
  unfold State.regular
  rw [machines_of_ret hret, terminals_of_ret hret]
  exact h

theorem mem_candidates_of_machineSlot {p : PosIx} (h : s.machineSlot = true) (hp : p ∈ s.machines) :
    .machine p ∈ s.candidates := by
  rw [candidates_machine h]
  exact List.mem_map.mpr ⟨p, mem_fromPointer.mpr hp, rfl⟩

/-- Where a regular node is not offered the slot, the slot is a terminal's and the next one is a machine's. -/
theorem State.regular.offered {x : Node} (h : s.regular x) : x ∈ s.candidates ∨ s.bus.slot = .terminal := by
  rcases h with ⟨p, rfl, hp⟩ | ⟨y, rfl, hy, hm⟩
  · cases hs : s.machineSlot with
    | true => exact .inl (mem_candidates_of_machineSlot hs hp)
    | false =>
      refine .inr (by_contra fun hne => ?_)
      rw [machineSlot_iff.mpr (.inr ⟨List.ne_nil_of_mem hp, hne⟩)] at hs
      exact nomatch hs
  · refine .inl ?_
    have hs : s.machineSlot = false := Bool.eq_false_iff.mpr fun hc => by
      rcases machineSlot_iff.mp hc with h | ⟨h, -⟩
      · rw [h] at hy; exact nomatch hy
      · exact h hm
    rw [candidates_terminal hs]
    exact List.mem_map.mpr ⟨y, mem_fromPointer.mpr hy, rfl⟩

/-- A slot that all pass leaves fewer slots for a regular node. -/
theorem slotsLeft_slotPassed {x : Node} (hx : s.regular x) (h : ∀ y ∈ s.candidates, s.passes y) :
    slotsLeft s.slotPassed x < slotsLeft s x := by
  unfold slotsLeft
  rw [nodeBus_slotPassed]
  by_cases hin : x ∈ s.candidates
  · obtain ⟨-, hskip⟩ := h x hin
    rw [if_pos hin, if_pos hin, NodeBus.passed]
    dsimp only
    split <;> omega
  · have hslot := hx.offered.resolve_left hin
    have hnext : s.slotPassed.bus.slot ≠ .terminal := by
      rw [(slotMoved_slotPassed s).slot, hslot]
      decide
    rw [if_neg hin, if_neg hin,
      if_pos ((hx.of_ret (slotMoved_slotPassed s).ret).offered.resolve_right hnext)]
    omega

/-- Within the slots left for a regular node, a visit is found. -/
theorem fillSlots_finds {x : Node} {k : Nat} (hx : s.regular x) (hk : slotsLeft s x < k) :
    ∃ u node, fillSlots k s = (u, some node) ∧ s.nodeConfigured node = true
      ∧ ∀ j, k ≤ j → fillSlots j s = fillSlots k s := by
  induction k generalizing s with
  | zero => exact absurd hk (Nat.not_lt_zero _)
  | succ k ih =>
    rcases passes_or_split s.candidates s with hall | ⟨before, node, after, hsplit, hb, hn⟩
    · have hleft := slotsLeft_slotPassed hx hall
      have moved := slotMoved_slotPassed s
      obtain ⟨u, node, hrun, hconf, hmore⟩ := ih (hx.of_ret moved.ret) (by omega)
      refine ⟨u, node, (fillSlots_passed hall).trans hrun, ?_, fun j hj => ?_⟩
      · cases node with
        | machine p =>
          rw [State.nodeConfigured, State.configured, State.record, moved.ret] at hconf
          exact hconf
        | terminal y =>
          rw [State.nodeConfigured, State.termConfigured, moved.ret] at hconf
          exact hconf
      · obtain ⟨j, rfl⟩ : ∃ i, j = i + 1 := ⟨j - 1, by omega⟩
        rw [fillSlots_passed hall, fillSlots_passed hall]
        exact hmore j (by omega)
    · have htaken := offer_taken (s := s) (hsplit ▸ nodup_candidates s) hb hn
      rw [← hsplit] at htaken
      refine ⟨_, node, fillSlots_of_offer htaken, configured_of_mem_candidates (by rw [hsplit]; simp), fun j hj => ?_⟩
      obtain ⟨j, rfl⟩ : ∃ i, j = i + 1 := ⟨j - 1, by omega⟩
      rw [fillSlots_of_offer htaken, fillSlots_of_offer htaken]

theorem slotsLeft_le (s : State) (x : Node) : slotsLeft s x ≤ 15 := by
  unfold slotsLeft
  split <;> omega

/-! ## The beginning of a visit -/

theorem startVisit_eq (h : s.candidates ≠ []) {u : State} {node : Node} (hf : fillSlots 24 s = (u, some node)) :
    startVisit s = beginVisit node u := by
  unfold startVisit
  rw [if_neg, hf]
  intro hempty
  rw [Bool.and_eq_true, List.isEmpty_iff, List.isEmpty_iff] at hempty
  exact h (candidates_eq_nil.mpr hempty)

theorem startVisit_of_none (h : s.candidates = []) : startVisit s = s := by
  obtain ⟨hm, hx⟩ := candidates_eq_nil.mp h
  unfold startVisit
  rw [if_pos (by rw [hm, hx]; rfl)]

theorem visit_beginVisit (node : Node) (s : State) :
    ∃ v, (beginVisit node s).bus.visit = some v ∧ v.phase = .sending ∧ v.node = node := by
  unfold beginVisit
  exact ⟨_, rfl, rfl, rfl⟩

/-- The offering of a slot does not read the trail. -/
theorem passAll_fresh (nodes : List Node) (s : State) : passAll nodes s.fresh = (passAll nodes s).fresh := by
  induction nodes generalizing s with
  | nil => rfl
  | cons x xs ih =>
    have head : s.fresh.setNodeBus x NodeBus.passed = (s.setNodeBus x NodeBus.passed).fresh := by cases x <;> rfl
    rw [passAll, List.foldl_cons, head, ← passAll, ih]
    rfl

theorem offer_fresh {node : Node} (h : (offer s.candidates s).2 = some node) :
    offer s.candidates s.fresh = ((offer s.candidates s).1.fresh, some node) := by
  rcases passes_or_split s.candidates s with hall | ⟨before, x, after, hsplit, hb, hn⟩
  · rw [offer_none (nodup_candidates s) hall] at h
    exact nomatch h
  · have hnd : (before ++ x :: after).Nodup := hsplit ▸ nodup_candidates s
    rw [hsplit, offer_taken hnd hb hn] at h ⊢
    cases h
    have hf := offer_taken (s := s.fresh) hnd (fun y hy => by cases y <;> exact hb _ hy) (by cases node <;> exact hn)
    have same : s.fresh.nodeBus node = s.nodeBus node := by cases node <;> rfl
    rw [hf, passAll_fresh, same]
    split
    · cases node <;> rfl
    · rfl

/-- Settles O33. -/
theorem slotOfferedInTurn : Obligations.SlotOfferedInTurn := by
  unfold Obligations.SlotOfferedInTurn
  refine ⟨?_, ?_, ?_, ?_, fun s hl hv hlisten hj => ⟨fun hc => ?_, fun hc => ?_, fun node hoff => ?_, fun hc hall => ?_⟩⟩
  · intro s p rest hc above
    have hs : s.machineSlot = true := by
      by_contra hne
      rw [candidates_terminal (Bool.eq_false_iff.mpr hne)] at hc
      obtain ⟨_, _, -, hx, -⟩ := List.map_eq_cons_iff.mp hc
      exact nomatch hx
    rw [candidates_machine hs] at hc
    obtain ⟨q, qs, hptr, hq, -⟩ := List.map_eq_cons_iff.mp hc
    cases hq
    obtain ⟨hmem, hleast⟩ := head_fromPointer (machines_rising s) hptr
    simp only [mem_machines] at hmem hleast
    refine ⟨hmem, ?_, hleast⟩
    refine (machineSlot_iff.mp hs).imp (fun h x => ?_) (·.2)
    exact Bool.eq_false_iff.mpr fun hx => by rw [← mem_terminals, h] at hx; exact nomatch hx
  · intro s x rest hc above
    have hs : s.machineSlot = false := by
      by_contra hne
      rw [candidates_machine (Bool.not_eq_false _ ▸ hne)] at hc
      obtain ⟨_, _, -, hx, -⟩ := List.map_eq_cons_iff.mp hc
      exact nomatch hx
    rw [candidates_terminal hs] at hc
    obtain ⟨q, qs, hptr, hq, -⟩ := List.map_eq_cons_iff.mp hc
    cases hq
    obtain ⟨hmem, hleast⟩ := head_fromPointer (terminals_rising s) hptr
    simp only [mem_terminals] at hmem hleast
    refine ⟨hmem, ?_, hleast⟩
    have hnot : ¬ (s.terminals = [] ∨ (s.machines ≠ [] ∧ s.bus.slot ≠ .terminal)) := fun h => by
      rw [machineSlot_iff.mpr h] at hs; exact nomatch hs
    by_cases hm : s.machines = []
    · exact .inl fun q => Bool.eq_false_iff.mpr fun hq => by rw [← mem_machines, hm] at hq; exact nomatch hq
    · exact .inr (by_contra fun hne => hnot (.inr ⟨hm, hne⟩))
  · intro s before node after hnd hb hn r
    have hnode : ¬ s.passes node := fun ⟨hl, hskip⟩ => hn.elim (fun h => h hl) (Nat.not_le.mpr hskip)
    obtain ⟨hbefore, -, hdisj⟩ := List.nodup_append.mp hnd
    have hr : r = _ := offer_taken hnd hb hnode
    have hout : node ∉ before := fun hm => hdisj node hm node List.mem_cons_self rfl
    have bus : ∀ y, r.1.nodeBus y = if y = node then
          (if (s.nodeBus node).presence = .lost then { s.nodeBus node with skip := 0 } else s.nodeBus node)
        else if y ∈ before then (s.nodeBus y).passed else s.nodeBus y := fun y => by
      rw [hr]
      by_cases hl : (s.nodeBus node).presence = .lost
      · rw [if_pos hl, if_pos hl, nodeBus_setNodeBus, nodeBus_passAll hbefore, nodeBus_passAll hbefore, if_neg hout]
        by_cases hy : y = node
        · rw [if_pos hy.symm, if_pos hy]
        · rw [if_neg (Ne.symm hy), if_neg hy]
      · rw [if_neg hl, if_neg hl, nodeBus_passAll hbefore]
        by_cases hy : y = node
        · subst hy; rw [if_neg hout, if_pos rfl]
        · rw [if_neg hy]
    refine ⟨by rw [hr], fun x hx => ?_, ?_, fun x hx hne => ?_⟩
    · rw [bus, if_neg (by rintro rfl; exact hout hx), if_pos hx]
      rfl
    · rw [bus, if_pos rfl]
    · rw [bus, if_neg hne, if_neg hx]
  · intro s machine terminal machineSlot terminalSlot
    refine ⟨fun ⟨⟨p, hp⟩, hslot⟩ => ?_, fun ⟨⟨x, hx⟩, hslot⟩ => ?_, ?_, nodup_candidates s⟩
    · have hs : s.machineSlot = true := machineSlot_iff.mpr <| by
        rcases hslot with h | h
        · exact .inl (List.eq_nil_iff_forall_not_mem.mpr fun x hx => h x (mem_terminals.mp hx))
        · exact .inr ⟨List.ne_nil_of_mem (mem_machines.mpr hp), by rcases h with h | h <;> rw [h] <;> decide⟩
      refine ⟨abovePointer s.bus.machinePtr s.machines, belowPointer s.bus.machinePtr s.machines, ?_,
        (machines_rising s).filter _, (machines_rising s).filter _, fun q => ?_, fun q => ?_⟩
      · rw [candidates_machine hs, fromPointer_eq]
      · rw [mem_abovePointer, mem_machines]
      · rw [mem_belowPointer, mem_machines]
    · have hs : s.machineSlot = false := Bool.eq_false_iff.mpr fun hc => by
        rcases machineSlot_iff.mp hc with h | ⟨hm, hne⟩
        · exact absurd (mem_terminals.mpr hx) (by rw [h]; exact nofun)
        · rcases hslot with h | h
          · exact hm (List.eq_nil_iff_forall_not_mem.mpr fun q hq => h q (mem_machines.mp hq))
          · exact hne h
      refine ⟨abovePointer s.bus.terminalPtr s.terminals, belowPointer s.bus.terminalPtr s.terminals, ?_,
        (terminals_rising s).filter _, (terminals_rising s).filter _, fun q => ?_, fun q => ?_⟩
      · rw [candidates_terminal hs, fromPointer_eq]
      · rw [mem_abovePointer, mem_terminals]
      · rw [mem_belowPointer, mem_terminals]
    · rw [candidates_eq_nil, List.eq_nil_iff_forall_not_mem, List.eq_nil_iff_forall_not_mem]
      simp only [mem_machines, mem_terminals]
      rfl
  · have hc' : s.fresh.candidates = [] := hc
    rw [exec_visit hl hv hlisten hj, startVisit_of_none hc']
  · have hc' : s.fresh.candidates ≠ [] := hc
    obtain ⟨x, hx⟩ := exists_regular hc'
    obtain ⟨u, node, hfill, hconf, -⟩ := fillSlots_finds (k := 24) hx ((slotsLeft_le _ _).trans_lt (by omega))
    obtain ⟨v, hvisit, hphase, hnode⟩ := visit_beginVisit node u
    rw [exec_visit hl hv hlisten hj, startVisit_eq hc' hfill]
    refine ⟨_, v, rfl, hvisit, hphase, ?_⟩
    rw [hnode]
    cases node <;> exact hconf
  · intro u
    have hc : s.fresh.candidates ≠ [] := fun h => by
      have : s.candidates = [] := h
      rw [this] at hoff
      exact nomatch hoff
    rw [exec_visit hl hv hlisten hj]
    exact congrArg _ (startVisit_of_offer (s := s.fresh) hc (show offer s.candidates s.fresh = _ from offer_fresh hoff))
  · have hc' : s.fresh.candidates ≠ [] := hc
    have moved := slotMoved_slotPassed s
    refine ⟨s.slotPassed, ?_, slotPassed_eq s, fun p => ?_, fun y => ?_, fun x hx => ?_, fun x hx => ?_⟩
    · have hfresh : s.fresh.slotPassed = s.slotPassed.fresh := by
        unfold State.slotPassed
        rw [show s.fresh.candidates = s.candidates from rfl, passAll_fresh]
        rfl
      have hall' : ∀ x ∈ s.fresh.candidates, s.fresh.passes x := fun x hx => by cases x <;> exact hall _ hx
      have hne : s.slotPassed.fresh.candidates ≠ [] := fun h => hc' (candidates_eq_nil.mpr (by
        rw [candidates_eq_nil, machines_of_ret (s := s.fresh) (t := s.slotPassed.fresh) moved.ret,
          terminals_of_ret (s := s.fresh) (t := s.slotPassed.fresh) moved.ret] at h
        exact h))
      obtain ⟨x, hx⟩ := exists_regular hne
      obtain ⟨u, node, hfill, -, hmore⟩ := fillSlots_finds (k := 23) hx ((slotsLeft_le _ _).trans_lt (by omega))
      have live : s.slotPassed.live = true ∧ s.slotPassed.bus.visit = none ∧ s.slotPassed.bus.listening = true
          ∧ s.slotPassed.bus.jammed = false := by
        rw [slotPassed_eq]
        exact ⟨hl, hv, hlisten, hj⟩
      obtain ⟨hl', hv', hlisten', hj'⟩ := live
      rw [exec_visit hl hv hlisten hj, exec_visit hl' hv' hlisten' hj',
        startVisit_eq hne ((hmore 24 (by omega)).trans hfill),
        startVisit_eq hc' ((fillSlots_passed hall').trans (hfresh ▸ hfill))]
    · exact vol_passAll s.candidates s p
    · exact terminal_passAll s.candidates s y
    · rw [nodeBus_slotPassed, if_pos hx]
      rfl
    · rw [nodeBus_slotPassed, if_neg hx]

end Sys2Proof.Machine
end

section
/-! One tick of the time base (R78, R80, R98, R107, R133, R135). -/

namespace Sys2Proof.Machine

variable {s t : State}

/-! ## The clock -/

/-- The minute that the next second stands in (R78). -/
def Clock.nextMinute (c : Clock) : Nat :=
  if c.second < 59 then c.minute else if c.minute + 1 < 10080 then c.minute + 1 else 0

/-- The next second is one of another day, with a valid clock (R80). -/
def Clock.crosses (c : Clock) : Bool := c.valid && decide (c.nextMinute / 1440 ≠ c.minute / 1440)

theorem clock_advance (c : Clock) : c.advance
    = { minute := c.nextMinute, second := if c.second < 59 then c.second + 1 else 0, valid := c.valid } := by
  unfold Clock.advance Clock.nextMinute
  by_cases h : c.second < 59
  · simp [h, Nat.lt_iff_add_one_le.mp h]
  · rw [if_neg (show ¬ c.second + 1 ≤ 59 by omega), if_neg h, if_neg h]
    rfl

theorem advanceClock_eq (s : State) : advanceClock s = { s with
    trail := (advanceClock s).trail
    clock := s.clock.advance
    ret := { s.ret with
      cards := if s.clock.crosses then s.ret.cards.map fun c => { c with spent := 0 } else s.ret.cards
      journal := if s.clock.crosses then none else s.ret.journal } } := by
  have hcond : (s.clock.advance.valid && dayOf s.clock.advance.minute != dayOf s.clock.minute)
      = s.clock.crosses := by
    rw [clock_advance]
    simp only [dayOf, Config.dayMinutes, Clock.crosses, bne, decide_not, beq_eq_decide]
  unfold advanceClock
  dsimp only
  rw [hcond]
  cases s.clock.crosses with
  | false => rfl
  | true =>
    rw [if_pos rfl, if_pos rfl, if_pos rfl, rollover_eq, rollover_ret]

/-! ## The sessions -/

theorem countMinute_idle {p : PosIx} (h : ∀ ses, s.session p = some ses → ses.minuteDue = false) :
    countMinute p s = s := by
  unfold countMinute
  split
  · rfl
  · next ses hs => simp [h ses hs]

theorem foldl_countMinute_idle (h : ∀ p ses, s.session p = some ses → ses.minuteDue = false) :
    ∀ ps : List PosIx, ps.foldl (fun s p => countMinute p s) s = s
  | [] => rfl
  | p :: ps => by rw [List.foldl_cons, countMinute_idle (h p), foldl_countMinute_idle h ps]

theorem tickSession_eq (p : PosIx) (s : State) : tickSession p s = { s with
    trail := (tickSession p s).trail
    ret := { s.ret with sessions := (tickSession p s).ret.sessions } } := by
  unfold tickSession
  split <;> rfl

theorem session_tickSession (p q : PosIx) (s : State) : (tickSession p s).session q
    = if p = q then (s.session q).map fun x => x.tick ((s.vol q).grant == .granted) else s.session q := by
  unfold tickSession
  split
  · rw [State.session_setSession]
    split
    · next h => rw [h]
    · rfl
  · next h =>
    split
    · next heq =>
      subst heq
      rw [Option.not_isSome_iff_eq_none.mp h]
      rfl
    · rfl

/-- The tick of every session in turn (R98, R107). -/
theorem foldl_tickSession (ps : List PosIx) (hnd : ps.Nodup) : ∀ s : State,
    (∀ q, (ps.foldl (fun s p => tickSession p s) s).session q
      = if q ∈ ps then (s.session q).map fun x => x.tick ((s.vol q).grant == .granted) else s.session q)
    ∧ ps.foldl (fun s p => tickSession p s) s = { s with
        trail := (ps.foldl (fun s p => tickSession p s) s).trail
        ret := { s.ret with sessions := (ps.foldl (fun s p => tickSession p s) s).ret.sessions } } := by
  induction ps with
  | nil => exact fun s => ⟨fun q => rfl, rfl⟩
  | cons p rest ih =>
    intro s
    obtain ⟨hp, hnd⟩ := List.nodup_cons.mp hnd
    obtain ⟨hses, heq⟩ := ih hnd (tickSession p s)
    have hvol : ∀ q, (tickSession p s).vol q = s.vol q := fun q => by rw [tickSession_eq]; rfl
    refine ⟨fun q => ?_, ?_⟩
    · rw [List.foldl_cons, hses, session_tickSession, hvol]
      by_cases hq : p = q
      · subst hq
        simp [hp]
      · simp [hq, Ne.symm hq]
    · rw [List.foldl_cons, heq, tickSession_eq p s]

theorem session_tick_stopped {ses : Session} (h : ses.state ≠ .running ∨ ses.holding = true) (b : Bool) :
    ses.tick b = { ses with
      startLimit := ses.startLimit.map (· - 1)
      pauseLimit := ses.pauseLimit.map (· - 1)
      doneLimit := ses.doneLimit.map (· - 1)
      ext := ses.ext.map fun e => { e with limit := e.limit.map (· - 1) } } := by
  refine if_neg fun hrun => ?_
  obtain ⟨hstate, hhold⟩ : ses.state = .running ∧ ses.holding = false := by simpa using hrun
  exact h.elim (fun h => h hstate) fun h => by simp [h] at hhold

theorem session_tick_running {ses : Session} (hs : ses.state = .running) (hh : ses.holding = false) (b : Bool) :
    ses.tick b = { ses with
      startLimit := ses.startLimit.map (· - 1)
      pauseLimit := ses.pauseLimit.map (· - 1)
      doneLimit := ses.doneLimit.map (· - 1)
      ext := ses.ext.map fun e => { e with limit := e.limit.map (· - 1) }
      heatSecs := if ses.mclass == .dryer && b then ses.heatSecs + 1 else ses.heatSecs
      secs := if ses.secs = 59 then 0 else ses.secs + 1
      minuteDue := decide (ses.secs = 59) } := by
  have hfull : (ses.secs + 1 == 60) = decide (ses.secs = 59) := by
    rw [beq_eq_decide, decide_eq_decide]
    omega
  refine (if_pos (by simp [hs, hh])).trans ?_
  simp only [hfull, decide_eq_true_eq]
  rfl

/-! ## The tick -/

/-- A tick before which no minute is due. -/
theorem tick_spec (h : ∀ p ses, s.session p = some ses → ses.minuteDue = false) :
    tick s = { s with
      trail := (tick s).trail
      clock := s.clock.advance
      ret := { s.ret with
        sessions := (tick s).ret.sessions
        cards := if s.clock.crosses then s.ret.cards.map fun c => { c with spent := 0 } else s.ret.cards
        journal := if s.clock.crosses then none else s.ret.journal }
      pos := (tick s).pos
      heat := { s.heat with sag := s.heat.sag.tick } }
    ∧ (∀ p, (tick s).vol p = { s.vol p with slice := (s.vol p).slice.map (· - 1) })
    ∧ ∀ p, (tick s).session p = (s.session p).map fun x => x.tick ((s.vol p).grant == .granted) := by
  have hclock := advanceClock_eq s
  obtain ⟨hses, hsessions⟩ := foldl_tickSession allPositions nodup_allPositions (advanceClock s)
  have htick : tick s = ((allPositions.foldl (fun s p => tickSession p s) (advanceClock s)).setAllVol
      tickSlice).setHeat fun h => { h with sag := h.sag.tick } := by
    unfold tick
    rw [foldl_countMinute_idle h]
  have hall := setAllVol_eq tickSlice (allPositions.foldl (fun s p => tickSession p s) (advanceClock s))
  have hvol := vol_setAllVol tickSlice (allPositions.foldl (fun s p => tickSession p s) (advanceClock s))
  rw [htick]
  generalize (allPositions.foldl (fun s p => tickSession p s) (advanceClock s)).setAllVol tickSlice = w at *
  generalize allPositions.foldl (fun s p => tickSession p s) (advanceClock s) = v at *
  generalize advanceClock s = u at *
  refine ⟨?_, fun p => ?_, fun p => ?_⟩
  · rw [hall, hsessions, hclock]
    rfl
  · refine (hvol p).trans ?_
    rw [hsessions, hclock]
    rfl
  · have hs : (w.setHeat fun h => { h with sag := h.sag.tick }).session p = v.session p := by
      rw [hall]
      rfl
    rw [hs, hses p, if_pos (mem_allPositions p), hclock]
    rfl

/-- Settles O40. -/
theorem timeBaseTickAdvances : Obligations.TimeBaseTickAdvances := by
  unfold Obligations.TimeBaseTickAdvances
  intro s hl hdue minute crosses
  obtain ⟨heq, hvol, hses⟩ := tick_spec (s := s.fresh) hdue
  refine ⟨tick s.fresh, ?_, heq.trans ?_, hvol, fun p hp => ?_, fun p ses hp => ⟨fun hstop => ?_, fun hrun hh => ?_⟩⟩
  · change execTimeBaseTick s = _
    rw [execTimeBaseTick, taking_of_live _ hl]
  · rw [show s.fresh.clock.advance = _ from clock_advance s.clock]
    simp only [State.fresh, Sag.tick]
    rfl
  · rw [hses, show s.fresh.session p = none from hp]
    rfl
  · rw [hses, show s.fresh.session p = some ses from hp]
    exact congrArg some (session_tick_stopped hstop _)
  · rw [hses, show s.fresh.session p = some ses from hp]
    refine congrArg some ((session_tick_running hrun hh _).trans ?_)
    have : (ses.mclass == .dryer && (s.fresh.vol p).grant == .granted)
        = decide (ses.mclass = .dryer ∧ (s.vol p).grant = .granted) := by
      rw [Bool.decide_and, ← beq_eq_decide, ← beq_eq_decide]
      rfl
    rw [this]

end Sys2Proof.Machine
end

section
/-! The twelve checks of a card request (R99, R100). -/

namespace Sys2Proof.Machine

variable {s : State} {p : PosIx} {t : TermIx} {r : CardRequest} {cfg : PosConfig} {c : Card}

/-! ## Checks in order -/

/-- The reason of the first check that fails. -/
def firstFailing (checks : List (Bool × DeclineReason)) : Option DeclineReason :=
  (checks.find? fun x => !x.1).map (·.2)

@[simp] theorem firstFailing_nil : firstFailing [] = none := rfl

@[simp] theorem firstFailing_cons (b : Bool) (why : DeclineReason) (rest : List (Bool × DeclineReason)) :
    firstFailing ((b, why) :: rest) = if b then firstFailing rest else some why := by
  cases b <;> rfl

/-- A decision behind some checks. -/
def judged {α : Type} (checks : List (Bool × DeclineReason)) (d : Except DeclineReason α) : Except DeclineReason α :=
  match firstFailing checks with
  | some why => .error why
  | none => d

theorem judged_of_failing {α : Type} {checks : List (Bool × DeclineReason)} {why : DeclineReason}
    (h : firstFailing checks = some why) (d : Except DeclineReason α) : judged checks d = .error why := by
  rw [judged, h]

theorem judged_of_passed {α : Type} {checks : List (Bool × DeclineReason)}
    (h : firstFailing checks = none) (d : Except DeclineReason α) : judged checks d = d := by
  rw [judged, h]

theorem judged_cons {α : Type} (b : Bool) (why : DeclineReason) (rest : List (Bool × DeclineReason))
    (d : Except DeclineReason α) :
    judged ((b, why) :: rest) d = if b then judged rest d else .error why := by
  cases b <;> rfl

/-- One check in front of the others. -/
theorem judged_cons_of {α : Type} {P : Prop} [Decidable P] {b : Bool} {why : DeclineReason}
    {rest : List (Bool × DeclineReason)} {d x : Except DeclineReason α} (hb : P ↔ b = false)
    (hx : x = judged rest d) : (if P then .error why else x) = judged ((b, why) :: rest) d := by
  subst hx
  cases b with
  | false => exact if_pos (hb.mpr rfl)
  | true => exact if_neg fun h => nomatch hb.mp h

theorem judged_append {α : Type} (first rest : List (Bool × DeclineReason)) (d : Except DeclineReason α) :
    judged (first ++ rest) d = judged first (judged rest d) := by
  induction first with
  | nil => rfl
  | cons x first ih =>
    obtain ⟨b, why⟩ := x
    rw [List.cons_append, judged_cons, judged_cons, ih]

/-! ## The checks of the card's money -/

/-- Checks 11 and 12 for an amount (R99). -/
def fundsChecks (c : Card) (cls : CardClass) (amount : Nat) : List (Bool × DeclineReason) :=
  [(decide (cls = .service ∨ amount ≤ c.balance - c.held), .insufficientFunds),
   (decide (cls = .service ∨ ∀ l, c.limit = some l → c.spent + amount ≤ l), .dailyLimit)]

theorem withinDay_iff (c : Card) (amount : Nat) :
    c.withinDay amount = true ↔ ∀ l, c.limit = some l → c.spent + amount ≤ l := by
  unfold Card.withinDay
  cases c.limit <;> simp

theorem checkFunds_eq (cls : CardClass) (c : Card) (amount : Nat) :
    checkFunds cls c amount = firstFailing (fundsChecks c cls amount) := by
  unfold checkFunds fundsChecks
  simp only [← withinDay_iff, firstFailing_cons, firstFailing_nil]
  by_cases hcls : cls = .service
  · simp [hcls]
  · by_cases hbal : c.balance - c.held < amount
    · simp [hcls, hbal, not_le.mpr hbal]
    · cases c.withinDay amount <;> simp [hcls, hbal, not_lt.mp hbal]

theorem match_checkFunds {α : Type} (cls : CardClass) (c : Card) (amount : Nat) (d : α) :
    (match checkFunds cls c amount with
      | some reason => .error reason
      | none => .ok d : Except DeclineReason α) = judged (fundsChecks c cls amount) (.ok d) := by
  rw [checkFunds_eq]
  rfl

/-! ## Checks 3 to 5 -/

/-- Checks 3 to 5: the card, the room and the machine (R99). -/
def earlyChecks (s : State) (p : PosIx) (c : Card) : List (Bool × DeclineReason) :=
  [(decide (c.state = .active), .cardBlocked),
   (!s.bandReading.closed || decide (c.cls ≠ .resident), .roomClosed),
   (decide ((s.vol p).bus.presence = .present ∧ (s.record p).fault = none
      ∧ ((s.record p).oos = false ∨ c.cls = .service)), .machineUnavailable)]

/-- Check 6: no session stands in the way, or the request is a top-up (R99, R100). -/
def sessionDecision (s : State) (p : PosIx) (cfg : PosConfig) (c : Card) (t : TermIx) (r : CardRequest) :
    Except DeclineReason Decision :=
  match s.session p with
  | none => authorizeNew p cfg c t r s
  | some ses =>
    if ses.cardId = r.cardId && ses.mclass == .dryer && ses.state == .running && ses.ext.isNone
    then authorizeTopup cfg c ses r
    else .error .machineBusy

theorem machineUnavailable_iff (s : State) (p : PosIx) (c : Card) :
    ((s.vol p).bus.presence != .present || (s.record p).fault.isSome || ((s.record p).oos && c.cls != .service)) = true
      ↔ decide ((s.vol p).bus.presence = .present ∧ (s.record p).fault = none
          ∧ ((s.record p).oos = false ∨ c.cls = .service)) = false := by
  rw [decide_eq_false_iff_not, Bool.or_eq_true, Bool.or_eq_true, Bool.and_eq_true, bne_iff_ne, bne_iff_ne,
    Option.isSome_iff_ne_none, not_and_or, not_and_or, not_or, Bool.not_eq_false, or_assoc]

theorem authorize_eq (hcfg : (s.record p).config = some cfg) (hc : s.card r.cardId = some c) :
    authorize p t r s = judged (earlyChecks s p c) (sessionDecision s p cfg c t r) := by
  have hblocked : c.state = .blocked ↔ decide (c.state = .active) = false := by
    cases c.state <;> simp
  have hroom : (s.bandReading.closed && c.cls == .resident) = true
      ↔ (!s.bandReading.closed || decide (c.cls ≠ .resident)) = false := by
    rw [Bool.or_eq_false_iff, Bool.and_eq_true, Bool.not_eq_false', decide_eq_false_iff_not, not_not, beq_iff_eq]
  unfold authorize
  rw [hcfg, hc]
  exact judged_cons_of hblocked (judged_cons_of hroom (judged_cons_of (machineUnavailable_iff s p c) rfl))

/-! ## The top-up path -/

/-- The minutes that a top-up adds and what they cost, by the frozen terms (R95, R100). -/
theorem authorizeTopup_eq {ses : Session} {l : PurchaseLimits} (hl : cfg.limits = some l) :
    let asked := if r.minutes.toNat = 0 then l.dflt else r.minutes.toNat
    let added := min asked (l.maximum - ses.purchased)
    let increment := ses.holdFor (ses.purchased + added) - ses.holdFor ses.purchased
    authorizeTopup cfg c ses r = if added = 0 then .error .topupAtMaximum
      else judged (fundsChecks c ses.cclass increment) (.ok (.topup added increment)) := by
  have hpurchase : cfg.purchase = l := by rw [PosConfig.purchase, hl]; rfl
  intro asked added increment
  unfold authorizeTopup
  rw [hpurchase]
  exact if_congr Iff.rfl rfl (match_checkFunds _ c increment _)

/-! ## A new session -/

/-- Checks 8 to 10 (R99). -/
def roomChecks (s : State) (p : PosIx) (cfg : PosConfig) : List (Bool × DeclineReason) :=
  [(decide (∃ x, (s.vol p).lastState = some x ∧ (x.mstate = .ready ∨ x.mstate = .doorOpen)), .machineNotReady),
   (decide (s.openSessions + s.ret.settlements.length < 64), .settlementFull),
   (s.ret.pendingBudget.isNone && decide (s.committed + cfg.motor ≤ s.ret.budget), .roomAtCapacity)]

theorem authorizeNew_eq (hcfg : (s.record p).config = some cfg) {e : PriceEntry}
    (he : findPrice cfg.cls r.program.toNat s.ret.prices = some e) :
    let ses := newSession cfg c e s.bandReading t r.reqTag r.program.toNat r.options r.minutes.toNat
    authorizeNew p cfg c t r s
      = judged (roomChecks s p cfg ++ fundsChecks c c.cls ses.hold) (.ok (.create ses)) := by
  intro ses
  have hready : (!(s.vol p).lastState.any fun x => x.mstate == .ready || x.mstate == .doorOpen) = true
      ↔ decide (∃ x, (s.vol p).lastState = some x ∧ (x.mstate = .ready ∨ x.mstate = .doorOpen)) = false := by
    rw [decide_eq_false_iff_not, Bool.not_eq_true', ← Bool.not_eq_true, Option.any_eq_true]
    simp
  have hfull : Config.settlementCapacity ≤ s.openSessions + s.ret.settlements.length
      ↔ decide (s.openSessions + s.ret.settlements.length < 64) = false := by
    rw [decide_eq_false_iff_not, not_lt, Config.settlementCapacity]
  have hmotor : s.motorLoad p = cfg.motor := by rw [State.motorLoad, hcfg]; rfl
  have hbudget : (s.ret.pendingBudget.isSome || decide (s.ret.budget < s.committed + s.motorLoad p)) = true
      ↔ (s.ret.pendingBudget.isNone && decide (s.committed + cfg.motor ≤ s.ret.budget)) = false := by
    rw [hmotor, Bool.and_eq_false_iff, Bool.or_eq_true, decide_eq_true_eq, decide_eq_false_iff_not, not_le]
    cases s.ret.pendingBudget <;> simp
  unfold authorizeNew
  rw [he]
  exact judged_cons_of hready (judged_cons_of hfull (judged_cons_of hbudget (match_checkFunds _ c ses.hold _)))

/-! ## The frozen terms -/

theorem bit_lt_four (o : WashOption) : o.bit < 4 := by
  cases o <;> decide

theorem getLsbD_options (xs : List (WashOption × Nat)) (i : Nat) (hi : i < 4) : ∀ acc : OptionSet,
    (xs.foldl (fun acc x => acc ||| (1#4 <<< x.1.bit)) acc).getLsbD i
      = (acc.getLsbD i || xs.any fun x => x.1.bit == i) := by
  induction xs with
  | nil => simp
  | cons x xs ih =>
    intro acc
    have hbit : (1#4 <<< x.1.bit).getLsbD i = (x.1.bit == i) := by
      have hx := bit_lt_four x.1
      rw [BitVec.getLsbD_shiftLeft, BitVec.getLsbD_one, Bool.eq_iff_iff]
      simp [hi]
      omega
    rw [List.foldl_cons, ih, BitVec.getLsbD_or, hbit, List.any_cons, Bool.or_assoc]

/-- The options taken are those requested that the entry offers (R89). -/
theorem getLsbD_optionsTaken (e : PriceEntry) (asked : OptionSet) (i : Nat) (hi : i < 4) :
    (optionsTaken e asked).getLsbD i = (asked.getLsbD i && e.surcharges.any fun x => x.1.bit == i) := by
  rw [optionsTaken, BitVec.getLsbD_and, getLsbD_options _ i hi]
  simp

theorem cls_of_findPrice {cls : MachineClass} {k : Nat} {es : List PriceEntry} {e : PriceEntry}
    (h : findPrice cls k es = some e) : e.cls = cls := by
  have := List.find?_some h
  simp only [PriceEntry.hasKey, Bool.and_eq_true, beq_iff_eq] at this
  exact this.1

theorem surchargeSum_optionsTaken {e : PriceEntry} {cls : MachineClass} (he : e.cls = cls) (asked : OptionSet) :
    surchargeSum e (optionsTaken e asked) = if cls = .washer
      then (e.surcharges.map fun x => if asked.getLsbD x.1.bit then x.2 else 0).sum else 0 := by
  subst he
  unfold surchargeSum
  cases e.cls with
  | dryer => rfl
  | washer =>
    rw [if_pos rfl]
    refine congrArg List.sum (List.map_congr_left fun x hx => ?_)
    have hany : (e.surcharges.any fun y => y.1.bit == x.1.bit) = true := List.any_eq_true.mpr ⟨x, hx, beq_self_eq_true _⟩
    rw [getLsbD_optionsTaken e asked _ (bit_lt_four x.1), hany, Bool.and_true]

/-- Settles O48. -/
theorem authorizationChecksInOrder : Obligations.AuthorizationChecksInOrder := by
  unfold Obligations.AuthorizationChecksInOrder
  intro s p t r firstFailing
  refine ⟨fun hcfg => ?_, fun cfg hcfg => ⟨fun hcard => ?_, fun c hcard => ?_⟩⟩
  · unfold authorize
    rw [hcfg]
  · unfold authorize
    rw [hcfg, hcard]
  intro early funds
  have hearly := authorize_eq (t := t) hcfg hcard
  refine ⟨fun why hwhy => hearly.trans (judged_of_failing hwhy _), fun hpass => ?_⟩
  have hdecided := hearly.trans (judged_of_passed hpass _)
  refine ⟨fun ses hses => ⟨fun hbusy => ?_, fun hid hcls hstate hext l hl => ?_⟩, fun hses => ⟨fun hprice => ?_, ?_⟩⟩
  · rw [hdecided, sessionDecision, hses]
    exact if_neg fun h => hbusy (by simpa [and_assoc] using h)
  · have htop : sessionDecision s p cfg c t r = authorizeTopup cfg c ses r := by
      rw [sessionDecision, hses]
      exact if_pos (by simp [hid, hcls, hstate, hext])
    have heq := (hdecided.trans htop).trans (authorizeTopup_eq hl)
    intro asked added price increment
    refine ⟨fun hzero => heq.trans (if_pos hzero), fun hne => ?_⟩
    have hfunds := heq.trans (if_neg hne)
    exact ⟨fun why hwhy => hfunds.trans (judged_of_failing hwhy _), fun hok => hfunds.trans (judged_of_passed hok _)⟩
  · rw [hdecided, sessionDecision, hses]
    unfold authorizeNew
    rw [hprice]
  · intro e he taken reading surcharge purchased hold ses late
    have hnew : sessionDecision s p cfg c t r = authorizeNew p cfg c t r s := by
      rw [sessionDecision, hses]
    have hterms : newSession cfg c e s.bandReading t r.reqTag r.program.toNat r.options r.minutes.toNat = ses := by
      unfold newSession
      dsimp only
      rw [surchargeSum_optionsTaken (cls_of_findPrice he), card_id hcard]
      cases hcls : cfg.cls with
      | washer =>
        dsimp only [ses, purchased, hold, surcharge]
        simp only [hcls, if_true]
        rfl
      | dryer =>
        dsimp only [ses, purchased, hold, surcharge]
        simp only [hcls, reduceCtorEq, if_false]
        rfl
    have heq := (hdecided.trans hnew).trans (authorizeNew_eq hcfg he)
    rw [hterms] at heq
    exact ⟨fun i hi => getLsbD_optionsTaken e r.options i hi,
      fun why hwhy => heq.trans (judged_of_failing hwhy _), fun hok => heq.trans (judged_of_passed hok _)⟩

end Sys2Proof.Machine
end

section
/-! Granting, first in, first out (R120, R126 to R128, R132). -/

namespace Sys2Proof.Machine

variable {s t u : State} {p : PosIx} {rest : List PosIx}

/-! ## The granting of a head -/

/-- What a grant that is given leaves of a position (R127). -/
def PosState.given (v : PosState) (slice : Option Nat) : PosState :=
  { v with
    grant := .granted
    slice := slice
    orders := v.orders ++ [{ body := .heatOn, owned := true, tag := none }]
    changed := true }

/-- The slice of a fresh grant: only a dryer has one (R133). -/
def State.freshSlice (s : State) (p : PosIx) : Option Nat :=
  if s.isDryer p = true then some (s.ret.config.heatSlice * 60) else none

theorem queueHasRoom_giveGrant (p : PosIx) (s : State) :
    (giveGrant p s).queueHasRoom p = decide ((s.vol p).orders.length < 4) := by
  unfold State.queueHasRoom giveGrant
  rw [State.vol_setVol, if_pos rfl]
  rfl

theorem grantHead_given (hroom : (s.vol p).orders.length < 4) :
    grantHead p s = { s with
      pos := s.pos.set p.val ((s.vol p).given (s.freshSlice p))
      heat := { s.heat with queue := s.heat.queue.erase p, order := s.heat.order ++ [p] } } := by
  rw [grantHead_eq, if_pos (by rw [queueHasRoom_giveGrant]; exact decide_eq_true hroom)]
  exact setVol_setVol p _ _ _

theorem grantHead_refused (hfull : 4 ≤ (s.vol p).orders.length) :
    grantHead p s = { s with
      pos := s.pos.set p.val { s.vol p with grant := .none, slice := none, changed := true }
      heat := { s.heat with
        queue := (s.heat.queue.erase p).erase p
        order := (s.heat.order ++ [p]).erase p } } := by
  rw [grantHead_eq, if_neg (by rw [queueHasRoom_giveGrant]; simpa using hfull)]
  unfold endGrant giveGrant
  dsimp only
  rw [setVol_setVol]
  rfl

theorem grantHead_of_room (hq : s.heat.queue = p :: rest) (hroom : (s.vol p).orders.length < 4) :
    grantHead p s = { s with
      pos := s.pos.set p.val ((s.vol p).given (s.freshSlice p))
      heat := { s.heat with queue := rest, order := s.heat.order ++ [p] } } := by
  rw [grantHead_given hroom, hq, List.erase_cons_head]

theorem grantHead_of_full (hq : s.heat.queue = p :: rest) (hfull : 4 ≤ (s.vol p).orders.length)
    (hrest : p ∉ rest) (horder : p ∉ s.heat.order) :
    grantHead p s = { s with
      pos := s.pos.set p.val { s.vol p with grant := .none, slice := none, changed := true }
      heat := { s.heat with queue := rest, order := s.heat.order } } := by
  rw [grantHead_refused hfull, hq, List.erase_cons_head, List.erase_of_not_mem hrest,
    List.erase_append_right _ horder, List.erase_cons_head, List.append_nil]

/-- Whatever becomes of its HEAT_ON, the head leaves the queue, and no other position is touched (R127, R128). -/
theorem grantHead_spec (hq : s.heat.queue = p :: rest) : ∃ v order queue,
    grantHead p s = { s with
      pos := s.pos.set p.val v
      heat := { s.heat with queue := queue, order := order } }
    ∧ queue.Sublist rest ∧ v.changed = true ∧ (v = (s.vol p).given (s.freshSlice p)
      ∨ v = { s.vol p with grant := .none, slice := none, changed := true }) := by
  by_cases hroom : (s.vol p).orders.length < 4
  · exact ⟨_, _, _, grantHead_of_room hq hroom, List.Sublist.refl _, rfl, .inl rfl⟩
  · refine ⟨_, _, _, grantHead_refused (Nat.le_of_not_lt hroom), ?_, rfl, .inr rfl⟩
    rw [hq, List.erase_cons_head]
    exact List.erase_sublist

theorem vol_grantHead_of_ne (hq : s.heat.queue = p :: rest) {q : PosIx} (hne : q ≠ p) :
    (grantHead p s).vol q = s.vol q := by
  obtain ⟨v, order, queue, heq, -⟩ := grantHead_spec hq
  rw [heq]
  exact (State.vol_setVol p q (fun _ => v) s).trans (if_neg (Ne.symm hne))

/-! ## The evaluation -/

theorem evaluateFor_succ_of_head (hq : s.heat.queue = p :: rest) (k : Nat) :
    evaluateFor (k + 1) s = if s.mayGrant p then evaluateFor k (grantHead p s) else s := by
  rw [evaluateFor, hq]

theorem evaluateFor_of_le (k : Nat) : ∀ {s : State}, s.heat.queue.length ≤ k → evaluateFor k s = evaluate s := by
  have more : ∀ n m : Nat, ∀ s : State, s.heat.queue.length ≤ n → s.heat.queue.length ≤ m →
      evaluateFor n s = evaluateFor m s := by
    intro n
    induction n with
    | zero =>
      intro m s hn _
      have hnil : s.heat.queue = [] := List.eq_nil_of_length_eq_zero (by omega)
      cases m with
      | zero => rfl
      | succ m => rw [evaluateFor, evaluateFor, hnil]
    | succ n ih =>
      intro m s hn hm
      cases hq : s.heat.queue with
      | nil =>
        cases m with
        | zero => rw [evaluateFor, evaluateFor, hq]
        | succ m => rw [evaluateFor, evaluateFor, hq]
      | cons p rest =>
        obtain ⟨v, order, queue, heq, hsub, -⟩ := grantHead_spec hq
        have hlen : (grantHead p s).heat.queue.length ≤ rest.length := by rw [heq]; exact hsub.length_le
        rw [hq, List.length_cons] at hn hm
        obtain ⟨m, rfl⟩ : ∃ k, m = k + 1 := ⟨m - 1, by omega⟩
        rw [evaluateFor_succ_of_head hq, evaluateFor_succ_of_head hq]
        split
        · exact ih m _ (by omega) (by omega)
        · rfl
  exact fun {s} h => more k _ s h (le_refl _)

/-- A head that may not be granted stops the evaluation (R127). -/
theorem evaluate_of_stop (hq : s.heat.queue = p :: rest) (hm : s.mayGrant p = false) : evaluate s = s := by
  rw [evaluate, hq, List.length_cons, evaluateFor_succ_of_head hq, hm]
  rfl

/-- A head that may be granted is, and the evaluation goes on (R127). -/
theorem evaluate_of_head (hq : s.heat.queue = p :: rest) (hm : s.mayGrant p = true) :
    evaluate s = evaluate (grantHead p s) := by
  obtain ⟨v, order, queue, heq, hsub, -⟩ := grantHead_spec hq
  rw [evaluate, hq, List.length_cons, evaluateFor_succ_of_head hq, hm]
  exact evaluateFor_of_le _ (by rw [heq]; exact hsub.length_le)

/-- A relation that the granting of each head keeps is kept by the evaluation. -/
theorem evaluate_induction {motive : State → State → Prop} (stop : ∀ s, motive s s)
    (head : ∀ s p rest t, s.heat.queue = p :: rest → s.mayGrant p = true → motive (grantHead p s) t → motive s t)
    (s : State) : motive s (evaluate s) := by
  have all : ∀ n : Nat, ∀ s : State, s.heat.queue.length ≤ n → motive s (evaluate s) := by
    intro n
    induction n with
    | zero =>
      intro s hn
      rw [evaluate_of_empty (List.eq_nil_of_length_eq_zero (by omega))]
      exact stop s
    | succ n ih =>
      intro s hn
      cases hq : s.heat.queue with
      | nil => rw [evaluate_of_empty hq]; exact stop s
      | cons p rest =>
        cases hm : s.mayGrant p with
        | false => rw [evaluate_of_stop hq hm]; exact stop s
        | true =>
          obtain ⟨v, order, queue, heq, hsub, -⟩ := grantHead_spec hq
          rw [hq, List.length_cons] at hn
          have hlen : (grantHead p s).heat.queue.length ≤ rest.length := by rw [heq]; exact hsub.length_le
          rw [evaluate_of_head hq hm]
          exact head s p rest _ hq hm (ih _ (by omega))
  exact all _ s (le_refl _)

/-- Nothing is granted under SAG (R127). -/
theorem evaluate_of_sag (h : s.heat.sag ≠ .normal) : evaluate s = s := by
  cases hq : s.heat.queue with
  | nil => exact evaluate_of_empty hq
  | cons p rest =>
    refine evaluate_of_stop hq (Bool.eq_false_iff.mpr fun hm => h (State.mayGrant_iff.mp hm).1)

/-! ## The heads that fit -/

/-- What the evaluation makes of a state, if it grants the heads given (R127). -/
structure Granted (s t : State) (given : List PosIx) : Prop where
  queue : s.heat.queue = given ++ t.heat.queue
  order : t.heat.order = s.heat.order ++ given
  frame : t = { s with pos := t.pos, heat := { s.heat with queue := t.heat.queue, order := t.heat.order } }
  load : t.committed = s.committed + (given.map s.heaterDemand).sum
  members : ∀ q ∈ given, t.vol q = (s.vol q).given (s.freshSlice q)
  others : ∀ q, q ∉ given → t.vol q = s.vol q

theorem Granted.refl (s : State) : Granted s s [] :=
  ⟨rfl, (List.append_nil _).symm, rfl, (Nat.add_zero _).symm, fun _ h => absurd h List.not_mem_nil, fun _ _ => rfl⟩

theorem HeatLaw.not_mem_order (h : HeatLaw s) (hp : p ∈ s.heat.queue) : p ∉ s.heat.order := by
  obtain ⟨-, hqueue, -, horder, -⟩ := h
  rw [horder, (hqueue p).mp hp]
  exact fun h => nomatch h

theorem committed_grantHead (hs : HeatLaw s) (hq : s.heat.queue = p :: rest) (hroom : (s.vol p).orders.length < 4) :
    (grantHead p s).committed = s.committed + s.heaterDemand p := by
  have hqueued : (s.vol p).grant = .queued := (hs.2.1 p).mp (by rw [hq]; exact List.mem_cons_self)
  have hvol : ∀ q, (grantHead p s).vol q = if p = q then (s.vol p).given (s.freshSlice p) else s.vol q := fun q => by
    rw [grantHead_of_room hq hroom]
    exact State.vol_setVol p q (fun _ => (s.vol p).given (s.freshSlice p)) s
  have hret : (grantHead p s).ret = s.ret := by rw [grantHead_of_room hq hroom]
  have hses : ∀ q, (grantHead p s).session q = s.session q := fun q => by rw [State.session, hret]; rfl
  have hmotor : ∀ q, (grantHead p s).motorLoad q = s.motorLoad q := fun q => by
    rw [State.motorLoad, State.record, hret]; rfl
  have hdemand : ∀ q, (grantHead p s).heaterDemand q = s.heaterDemand q := fun q => by
    rw [State.heaterDemand, State.record, hret]; rfl
  have hupd := committed_update (s := s) (t := grantHead p s) p fun q hne => by
    simp only [State.loadOf, hses, hmotor, hdemand, hvol, if_neg (Ne.symm hne)]
  simp only [State.loadOf, hses, hmotor, hdemand, hvol, if_true, hqueued, PosState.given, Grant.counted,
    Bool.false_eq_true, if_false] at hupd
  omega

theorem Granted.cons (hs : HeatLaw s) (hq : s.heat.queue = p :: rest) (hroom : (s.vol p).orders.length < 4)
    {given : List PosIx} (h : Granted (grantHead p s) t given) : Granted s t (p :: given) := by
  have heq := grantHead_of_room hq hroom
  have hqueue : (grantHead p s).heat.queue = rest := by rw [heq]
  have hnotin : p ∉ given := fun hmem => by
    have hnd := hs.1
    rw [hq, ← hqueue, h.queue] at hnd
    exact (List.nodup_cons.mp hnd).1 (List.mem_append_left _ hmem)
  have hvol : ∀ q, q ≠ p → (grantHead p s).vol q = s.vol q := fun q hne => vol_grantHead_of_ne hq hne
  have hhead : (grantHead p s).vol p = (s.vol p).given (s.freshSlice p) := by
    rw [heq]
    exact (State.vol_setVol p p (fun _ => (s.vol p).given (s.freshSlice p)) s).trans (if_pos rfl)
  have hslice : ∀ q, (grantHead p s).freshSlice q = s.freshSlice q := fun q => by rw [heq]; rfl
  have hdemand : (grantHead p s).heaterDemand = s.heaterDemand := by rw [heq]; rfl
  refine ⟨?_, ?_, h.frame.trans (by rw [heq]), ?_, fun q hmem => ?_, fun q hnot => ?_⟩
  · rw [hq, List.cons_append, ← h.queue, hqueue]
  · rw [h.order, heq, List.append_assoc]
    rfl
  · rw [h.load, committed_grantHead hs hq hroom, hdemand, List.map_cons, List.sum_cons, Nat.add_assoc]
  · rcases List.mem_cons.mp hmem with rfl | hmem
    · rw [h.others _ hnotin, hhead]
    · rw [h.members q hmem, hvol q fun e => hnotin (e ▸ hmem), hslice]
  · obtain ⟨hne, hnot⟩ := not_or.mp (mt List.mem_cons.mpr hnot)
    rw [h.others q hnot, hvol q hne]

theorem heatLaw_grantHead (hs : HeatLaw s) (hq : s.heat.queue = p :: rest) (hm : s.mayGrant p = true) :
    HeatLaw (grantHead p s) := heatLaw_moves hs (grantHead_moves p rest hq hm Relation.ReflTransGen.refl)

theorem heatLaw_evaluate (hs : HeatLaw s) : HeatLaw (evaluate s) :=
  heatLaw_moves hs (evaluate_moves Relation.ReflTransGen.refl)

/-- Strictly first in, first out: the heads that fit are granted, and the first that does not stops it (R127). -/
theorem evaluate_granted (s : State) : HeatLaw s → (∀ q ∈ s.heat.queue, (s.vol q).orders.length < 4) →
    ∃ given, Granted s (evaluate s) given
      ∧ (given ≠ [] → s.heat.sag = .normal ∧ s.ret.pendingBudget = none)
      ∧ ∀ q rest, (evaluate s).heat.queue = q :: rest → (evaluate s).mayGrant q = false := by
  have all : ∀ n : Nat, ∀ s : State, s.heat.queue.length = n → HeatLaw s →
      (∀ q ∈ s.heat.queue, (s.vol q).orders.length < 4) →
      ∃ given, Granted s (evaluate s) given
        ∧ (given ≠ [] → s.heat.sag = .normal ∧ s.ret.pendingBudget = none)
        ∧ ∀ q rest, (evaluate s).heat.queue = q :: rest → (evaluate s).mayGrant q = false := by
    intro n
    induction n with
    | zero =>
      intro s hn _ _
      have hnil := List.eq_nil_of_length_eq_zero hn
      rw [evaluate_of_empty hnil]
      exact ⟨[], .refl s, fun h => absurd rfl h, fun q rest h => by rw [hnil] at h; exact nomatch h⟩
    | succ n ih =>
      intro s hn hs hroom
      obtain ⟨p, rest, hq⟩ := List.exists_cons_of_length_eq_add_one hn
      cases hm : s.mayGrant p with
      | false =>
        rw [evaluate_of_stop hq hm]
        refine ⟨[], .refl s, fun h => absurd rfl h, fun q rest' h => ?_⟩
        obtain ⟨rfl, -⟩ := List.cons.inj (hq.symm.trans h)
        exact hm
      | true =>
        have hp := hroom p (by rw [hq]; exact List.mem_cons_self)
        have heq := grantHead_of_room hq hp
        have hqueue : (grantHead p s).heat.queue = rest := by rw [heq]
        have hs' := heatLaw_grantHead hs hq hm
        have hnd := hs.1
        rw [hq] at hn hnd
        obtain ⟨given, hgiven, -, hstop⟩ := ih (grantHead p s) (by rw [hqueue]; exact Nat.succ.inj hn) hs' fun q hmem => by
          rw [hqueue] at hmem
          have hne : p ≠ q := fun e => (List.nodup_cons.mp hnd).1 (e ▸ hmem)
          rw [vol_grantHead_of_ne hq (Ne.symm hne)]
          exact hroom q (by rw [hq]; exact List.mem_cons_of_mem _ hmem)
        obtain ⟨hsag, hpending, -⟩ := State.mayGrant_iff.mp hm
        rw [evaluate_of_head hq hm]
        exact ⟨p :: given, hgiven.cons hs hq hp, fun _ => ⟨hsag, hpending⟩, hstop⟩
  exact fun hs hroom => all _ s rfl hs hroom

/-! ## A heat request in a STATE -/

theorem heatTakesState_of_not_releasing {on request : Bool}
    (h : ((testViolation p on s).vol p).grant ≠ .releasing) :
    heatTakesState p on request s =
      let u := (testViolation p on s).setVol p fun v => { v with heatRequest := request }
      if request then if u.mayQueue p then evaluate (joinQueue p u) else u else withdraw p u := by
  have hends : (testViolation p on s).releaseEnds p on = false := by
    unfold State.releaseEnds
    simp [h]
  unfold heatTakesState
  dsimp only
  rw [hends]
  rfl

/-- Settles O44. -/
theorem grantingFirstInFirstOut : Obligations.GrantingFirstInFirstOut := by
  unfold Obligations.GrantingFirstInFirstOut
  refine ⟨fun s hs hroom => ?_, fun s hs => ?_, fun s p on request => ?_⟩
  · intro t open1
    obtain ⟨given, h, hopen, hstop⟩ := evaluate_granted s hs hroom
    have hret : t.ret = s.ret := (congrArg State.ret h.frame :)
    have hsag' : t.heat.sag = s.heat.sag := (congrArg (fun x : State => x.heat.sag) h.frame :)
    have hbudget : t.ret.budget = s.ret.budget := congrArg Retained.budget hret
    have hlaw := heatLaw_evaluate hs
    refine ⟨given, h.queue, h.order, h.frame, h.load, hbudget ▸ hlaw.2.2.2.2.2.1, fun hshut => ?_,
      fun hopen1 p rest hq => ?_, h.members, h.others⟩
    · by_contra hne
      obtain ⟨hsag, hpending⟩ := hopen hne
      simp [open1, hsag, hpending] at hshut
    · by_contra hfits
      have hm : t.mayGrant p = true := by
        obtain ⟨hsag, hpending⟩ : s.heat.sag = .normal ∧ s.ret.pendingBudget = none := by
          simpa [open1] using hopen1
        refine State.mayGrant_iff.mpr ⟨?_, ?_, ?_⟩
        · rw [hsag', hsag]
        · rw [hret, hpending]
        · have hdemand : t.heaterDemand p = s.heaterDemand p := by
            rw [State.heaterDemand, State.record, hret]; rfl
          rw [hbudget, hdemand]
          exact Nat.le_of_not_lt hfits
      rw [hstop p rest hq] at hm
      exact nomatch hm
  · intro granted
    refine ⟨evaluate_of_empty, fun p rest hq => ?_⟩
    intro v fits
    refine ⟨fun hno => ?_, fun hfits hroom => ?_, fun hfits hfull => ?_⟩
    · exact evaluate_of_stop hq (Bool.eq_false_iff.mpr fun hm => hno (State.mayGrant_iff.mp hm))
    · rw [evaluate_of_head hq (State.mayGrant_iff.mpr hfits), grantHead_of_room hq hroom]
      rfl
    · have hnd := hs.1
      rw [hq] at hnd
      rw [evaluate_of_head hq (State.mayGrant_iff.mpr hfits), grantHead_of_full hq hfull (List.nodup_cons.mp hnd).1
        (HeatLaw.not_mem_order hs (by rw [hq]; exact List.mem_cons_self))]
  · intro u asked t hrel
    have ht : t = _ := heatTakesState_of_not_releasing hrel
    dsimp only at ht
    have hmay : (u.setVol p fun v => { v with heatRequest := request }).mayQueue p = u.mayQueue p := by
      unfold State.mayQueue
      rw [State.vol_setVol, if_pos rfl]
      rfl
    refine ⟨fun hreq hnone hrun hheat => ?_, fun hreq hnot => ?_, fun hreq => ?_⟩
    · subst hreq
      refine ht.trans ((if_pos rfl).trans ((if_pos ?_).trans (congrArg evaluate ?_)))
      · rw [hmay]
        exact State.mayQueue_iff.mpr ⟨hrun, hheat, hnone⟩
      · unfold joinQueue
        dsimp only
        rw [setVol_setVol]
        rfl
    · subst hreq
      refine ht.trans ((if_pos rfl).trans (if_neg ?_))
      rw [hmay, State.mayQueue_iff]
      rintro ⟨hrun, hheat, hnone⟩
      rcases hnot with h | h | h
      · exact h hnone
      · rw [h] at hrun; exact nomatch hrun
      · omega
    · subst hreq
      exact ht

end Sys2Proof.Machine
end

section
/-! What the operations of the room leave as it is: an operation at one position, with its reports, its withdrawal and
the granting that follows it (R35, R37, R38, R40, R120, R127 to R129). -/

namespace Sys2Proof.Machine

variable {s t u : State} {p q : PosIx}

/-! ## What no operation of the order queues and grants touches -/

/-- A position without its order queue, its grant and its changed flag. -/
def PosState.marks (v : PosState) : PosState :=
  { v with orders := [], owed := false, grant := .none, slice := none, changed := false }

/-- START and EXTEND, the orders that a session owns. -/
def OrderBody.ownable (b : OrderBody) : Bool := b.isStart || b.isExtend

/-- A position's marks stand, its changed flag stays set, its HALT and HEAT_OFF stand, and no START or EXTEND with an
owner joins its queue. -/
structure PosKept (v w : PosState) : Prop where
  marks : w.marks = v.marks
  changed : v.changed = true → w.changed = true
  stands : ∀ b, b = .halt ∨ b = .heatOff → (∃ o ∈ v.orders, o.body = b) → ∃ o ∈ w.orders, o.body = b
  owned : ∀ o ∈ w.orders, o.owned = true → o.body.ownable = true → o ∈ v.orders

theorem PosKept.refl (v : PosState) : PosKept v v := ⟨rfl, id, fun _ _ => id, fun _ h _ _ => h⟩

theorem PosKept.trans {v w x : PosState} (h : PosKept v w) (k : PosKept w x) : PosKept v x :=
  ⟨k.marks.trans h.marks, fun e => k.changed (h.changed e), fun b hb e => k.stands b hb (h.stands b hb e),
   fun o ho hown hb => h.owned o (k.owned o ho hown hb) hown hb⟩

/-- A change that leaves the orders. -/
theorem PosKept.of_orders {v w : PosState} (hm : w.marks = v.marks) (hc : v.changed = true → w.changed = true)
    (ho : w.orders = v.orders) : PosKept v w :=
  ⟨hm, hc, fun _ _ h => ho ▸ h, fun _ h _ _ => ho ▸ h⟩

/-- Every position keeps its marks, and only the position named and those that wait for a grant are touched at all;
under SAG only the position named. -/
structure Kept (p : PosIx) (s t : State) : Prop where
  pos : ∀ q, PosKept (s.vol q) (t.vol q)
  others : ∀ q, q ≠ p → q ∉ s.heat.queue → t.vol q = s.vol q ∧ q ∉ t.heat.queue
  shut : s.heat.sag ≠ .normal → ∀ q, q ≠ p → t.vol q = s.vol q
  sag : t.heat.sag = s.heat.sag

theorem Kept.refl (p : PosIx) (s : State) : Kept p s s :=
  ⟨fun _ => .refl _, fun _ _ h => ⟨rfl, h⟩, fun _ _ _ => rfl, rfl⟩

theorem Kept.trans (h : Kept p s t) (k : Kept p t u) : Kept p s u := by
  refine ⟨fun q => (h.pos q).trans (k.pos q), fun q hne hq => ?_, fun hsag q hne => ?_, k.sag.trans h.sag⟩
  · obtain ⟨hvol, hout⟩ := h.others q hne hq
    obtain ⟨hvol', hout'⟩ := k.others q hne hout
    exact ⟨hvol'.trans hvol, hout'⟩
  · exact (k.shut (h.sag ▸ hsag) q hne).trans (h.shut hsag q hne)

/-- A change outside the positions and the grants. -/
theorem Kept.of_same (p : PosIx) (hpos : t.pos = s.pos) (hheat : t.heat = s.heat) : Kept p s t := by
  have hvol : ∀ q, t.vol q = s.vol q := fun q => by rw [State.vol, hpos]; rfl
  exact ⟨fun q => by rw [hvol]; exact .refl _, fun q _ h => ⟨hvol q, hheat ▸ h⟩, fun _ q _ => hvol q, by rw [hheat]⟩

/-- A change of the position named and of what waits: the queue loses positions, or gains the one named. -/
theorem Kept.of_vol (hvol : ∀ q, q ≠ p → t.vol q = s.vol q) (hp : PosKept (s.vol p) (t.vol p))
    (hqueue : ∀ q, q ≠ p → q ∈ t.heat.queue → q ∈ s.heat.queue) (hsag : t.heat.sag = s.heat.sag) : Kept p s t := by
  refine ⟨fun q => ?_, fun q hne hq => ⟨hvol q hne, mt (hqueue q hne) hq⟩, fun _ q hne => hvol q hne, hsag⟩
  by_cases hq : q = p
  · subst hq; exact hp
  · rw [hvol q hq]; exact .refl _

theorem vol_setVol_ne (f : PosState → PosState) (h : q ≠ p) (s : State) : (s.setVol p f).vol q = s.vol q := by
  rw [State.vol_setVol, if_neg (Ne.symm h)]

theorem Kept.setVol (f : PosState → PosState) (hp : PosKept (s.vol p) (f (s.vol p))) : Kept p s (s.setVol p f) :=
  .of_vol (fun q hne => vol_setVol_ne f hne s) (by rw [State.vol_setVol, if_pos rfl]; exact hp) (fun _ _ h => h) rfl

/-! ## The store and the terminals -/

theorem RoomStep.refl (s : State) : RoomStep s s := rfl

theorem RoomStep.trans (h : RoomStep s t) (k : RoomStep t u) : RoomStep s u := by
  unfold RoomStep at *
  exact k.trans (by rw [h])

/-- Only queues, grants and budgets changed. -/
def GrantStep (s t : State) : Prop :=
  t = { s with
    trail := t.trail
    pos := t.pos
    heat := { s.heat with queue := t.heat.queue, order := t.heat.order }
    ret := { s.ret with budget := t.ret.budget, pendingBudget := t.ret.pendingBudget } }

theorem GrantStep.refl (s : State) : GrantStep s s := rfl

theorem GrantStep.trans (h : GrantStep s t) (k : GrantStep t u) : GrantStep s u := by
  unfold GrantStep at *
  exact k.trans (by rw [h])

theorem GrantStep.room (h : GrantStep s t) : RoomStep s t := by
  unfold GrantStep at h
  unfold RoomStep
  rw [h]

theorem GrantStep.sessions (h : GrantStep s t) : t.ret.sessions = s.ret.sessions := by
  unfold GrantStep at h
  rw [h]

theorem GrantStep.session (h : GrantStep s t) (q : PosIx) : t.session q = s.session q := by
  rw [State.session, h.sessions]; rfl

theorem GrantStep.cards (h : GrantStep s t) : t.ret.cards = s.ret.cards := by
  unfold GrantStep at h
  rw [h]

theorem GrantStep.card (h : GrantStep s t) (id : CardId) : t.card id = s.card id := by
  rw [State.card, h.cards]; rfl

theorem GrantStep.settlements (h : GrantStep s t) :
    t.ret.settlements = s.ret.settlements ∧ t.ret.nextSettlement = s.ret.nextSettlement := by
  unfold GrantStep at h
  rw [h]
  exact ⟨rfl, rfl⟩

theorem GrantStep.faults (h : GrantStep s t) : t.ret.faults = s.ret.faults := by
  unfold GrantStep at h
  rw [h]

theorem GrantStep.term (h : GrantStep s t) : t.term = s.term := by
  unfold GrantStep at h
  rw [h]

theorem GrantStep.terminals (h : GrantStep s t) : t.ret.terminals = s.ret.terminals := by
  unfold GrantStep at h
  rw [h]

theorem GrantStep.config (h : GrantStep s t) : t.ret.config = s.ret.config := by
  unfold GrantStep at h
  rw [h]

theorem GrantStep.record (h : GrantStep s t) (q : PosIx) : t.record q = s.record q := by
  unfold GrantStep at h
  rw [h]
  rfl

/-! ## An operation at a position -/

/-- No report of an order can reach a session here: there is no STARTING session and no open extension. -/
def State.Quiet (s : State) (p : PosIx) : Prop :=
  ∀ ses, s.session p = some ses → ses.state ≠ .starting ∧ ses.ext = none

theorem GrantStep.quiet (h : GrantStep s t) (hq : s.Quiet p) : t.Quiet p := fun ses hs => hq ses (h.session p ▸ hs)

theorem State.quiet_of_none (h : s.session p = none) : s.Quiet p := fun _ hs => by rw [h] at hs; exact nomatch hs

/-- The budgets stand, or the pending one became active (R124). -/
def BudgetStep (s t : State) : Prop :=
  (t.ret.pendingBudget = s.ret.pendingBudget ∧ t.ret.budget = s.ret.budget)
    ∨ ∃ n, s.ret.pendingBudget = some n ∧ t.ret.pendingBudget = none ∧ t.ret.budget = n

theorem BudgetStep.trans (h : BudgetStep s t) (k : BudgetStep t u) : BudgetStep s u := by
  unfold BudgetStep at *
  rcases h with ⟨h1, h2⟩ | ⟨n, h1, h2, h3⟩
  · rw [h1, h2] at k
    exact k
  · rcases k with ⟨k1, k2⟩ | ⟨m, k1, -⟩
    · exact .inr ⟨n, h1, k1.trans h2, k2.trans h3⟩
    · rw [h2] at k1
      exact nomatch k1

/-- What an operation at a position leaves as it is. -/
structure Stirred (p : PosIx) (s t : State) : Prop where
  room : RoomStep s t
  sessions : ∀ q, q ≠ p → t.session q = s.session q
  settlements : t.ret.settlements = s.ret.settlements ∧ t.ret.nextSettlement = s.ret.nextSettlement
  answers : ∀ x, ∀ i ∈ (s.terminal x).outbox, i.waitingText = false → i ∈ (t.terminal x).outbox
  kept : Kept p s t
  budgets : BudgetStep s t

theorem Stirred.refl (p : PosIx) (s : State) : Stirred p s s :=
  ⟨.refl s, fun _ _ => rfl, ⟨rfl, rfl⟩, fun _ _ h _ => h, .refl p s, .inl ⟨rfl, rfl⟩⟩

theorem Stirred.trans (h : Stirred p s t) (k : Stirred p t u) : Stirred p s u where
  room := h.room.trans k.room
  sessions q hq := (k.sessions q hq).trans (h.sessions q hq)
  settlements := ⟨k.settlements.1.trans h.settlements.1, k.settlements.2.trans h.settlements.2⟩
  answers x i hi hw := k.answers x i (h.answers x i hi hw) hw
  kept := h.kept.trans k.kept
  budgets := h.budgets.trans k.budgets

/-- Where no report can reach the session, only queues, grants and budgets change. -/
structure Told (p : PosIx) (s t : State) : Prop extends Stirred p s t where
  calm : s.Quiet p → GrantStep s t

theorem Told.refl (p : PosIx) (s : State) : Told p s s := ⟨.refl p s, fun _ => .refl s⟩

theorem Told.trans (h : Told p s t) (k : Told p t u) : Told p s u :=
  ⟨h.toStirred.trans k.toStirred, fun hq => (h.calm hq).trans (k.calm ((h.calm hq).quiet hq))⟩

/-- An operation that a report to the session began. -/
theorem Stirred.told (h : Stirred p s t) (hloud : ¬ s.Quiet p) : Told p s t := ⟨h, fun hq => absurd hq hloud⟩

theorem GrantStep.told (h : GrantStep s t) (k : Kept p s t) (b : BudgetStep s t) : Told p s t :=
  ⟨⟨h.room, fun q _ => h.session q, h.settlements, fun x i hi _ => by rwa [State.terminal, h.term], k, b⟩, fun _ => h⟩

/-- A change of the position named. -/
theorem Told.setVol (f : PosState → PosState) (hp : PosKept (s.vol p) (f (s.vol p))) : Told p s (s.setVol p f) :=
  GrantStep.told rfl (.setVol f hp) (.inl ⟨rfl, rfl⟩)

/-- A change at the position named that leaves its orders. -/
theorem Told.setVol_marks (f : PosState → PosState) (hm : ∀ v, (f v).marks = v.marks)
    (hc : ∀ v, v.changed = true → (f v).changed = true) (ho : ∀ v, (f v).orders = v.orders) :
    Told p s (s.setVol p f) := .setVol f (.of_orders (hm _) (hc _) (ho _))

theorem told_markChanged (p : PosIx) (s : State) : Told p s (s.markChanged p) :=
  .setVol_marks _ (fun _ => rfl) (fun _ _ => rfl) fun _ => rfl

/-! ## Order queues -/

theorem PosKept.append (v : PosState) {o : Order} (ho : o.owned = true → o.body.ownable = false) :
    PosKept v { v with orders := v.orders ++ [o] } := by
  refine ⟨rfl, id, fun b _ ⟨x, hx, hb⟩ => ⟨x, List.mem_append_left _ hx, hb⟩, fun x hx hown hb => ?_⟩
  rcases List.mem_append.mp hx with h | h
  · exact h
  · obtain rfl := List.mem_singleton.mp h
    rw [ho hown] at hb
    exact nomatch hb

theorem told_appendOrder (p : PosIx) {b : OrderBody} (hb : b.ownable = false) (s : State) :
    Told p s (appendOrder p (newOrder b) s) := .setVol _ (.append _ fun _ => hb)

/-- A HALT or HEAT_OFF is no display order. -/
theorem posKept_queueDisplay (v : PosState) {body : OrderBody} (hb : body.ownable = false) :
    PosKept v { v with orders := (queueDisplay body v.orders).1, owed := (queueDisplay body v.orders).2 } := by
  have hstands : ∀ b, b = .halt ∨ b = .heatOff → ∀ o ∈ v.orders, o.body = b →
      o ∈ v.orders.filter fun o => !(o.undelivered && o.body.display) := by
    rintro b (rfl | rfl) o ho hbody
    · exact List.mem_filter.mpr ⟨ho, by simp [hbody, OrderBody.display]⟩
    · exact List.mem_filter.mpr ⟨ho, by simp [hbody, OrderBody.display]⟩
  unfold queueDisplay
  dsimp only
  split
  · refine ⟨rfl, id, fun b hb' ⟨o, ho, hbody⟩ => ⟨o, List.mem_append_left _ (hstands b hb' o ho hbody), hbody⟩,
      fun o ho _ hown => ?_⟩
    rcases List.mem_append.mp ho with h | h
    · exact (List.mem_filter.mp h).1
    · obtain rfl := List.mem_singleton.mp h
      rw [show (newOrder body).body = body from rfl, hb] at hown
      exact nomatch hown
  · exact ⟨rfl, id, fun b hb' ⟨o, ho, hbody⟩ => ⟨o, hstands b hb' o ho hbody, hbody⟩,
      fun o ho _ _ => (List.mem_filter.mp ho).1⟩

theorem told_askDisplay (p : PosIx) (s : State) : Told p s (askDisplay p s) := by
  have hbody : (if s.outOfOrder p then OrderBody.disable else .enable).ownable = false := by split <;> rfl
  exact Told.setVol (fun v => { v with
    orders := (queueDisplay (if s.outOfOrder p then .disable else .enable) (s.vol p).orders).1
    owed := (queueDisplay (if s.outOfOrder p then .disable else .enable) (s.vol p).orders).2 })
    (posKept_queueDisplay (s.vol p) hbody)

theorem told_serveOwed (p : PosIx) (s : State) : Told p s (serveOwed p s) := by
  unfold serveOwed
  split
  · exact told_askDisplay p s
  · exact .refl p s

/-- A queue whose own orders are let go: neither HALT nor HEAT_OFF is among them. -/
theorem posKept_letGo (v : PosState) {isOwn : OrderBody → Bool} (h : isOwn .halt = false ∧ isOwn .heatOff = false) :
    PosKept v { v with
      orders := (v.orders.filter fun o => !(o.undelivered && isOwn o.body && o.owned)).map fun o =>
        if isOwn o.body then { o with owned := false } else o } := by
  refine ⟨rfl, id, fun b hb ⟨o, ho, hbody⟩ => ?_, fun o ho hown _ => ?_⟩
  · have hnot : isOwn o.body = false := by
      rw [hbody]
      rcases hb with rfl | rfl
      · exact h.1
      · exact h.2
    exact ⟨o, List.mem_map.mpr ⟨o, List.mem_filter.mpr ⟨ho, by simp [hnot]⟩, by simp [hnot]⟩, hbody⟩
  · obtain ⟨x, hx, rfl⟩ := List.mem_map.mp ho
    split at hown
    · exact nomatch hown
    · next hnot => rw [if_neg hnot]; exact (List.mem_filter.mp hx).1

theorem told_letGo (isOwn : OrderBody → Bool) (h : isOwn .halt = false ∧ isOwn .heatOff = false) (p : PosIx)
    (s : State) : Told p s (letGo isOwn p s) := by
  have freed : Told p s (s.setVol p fun v => { v with
      orders := ((s.vol p).orders.filter fun o => !(o.undelivered && isOwn o.body && o.owned)).map fun o =>
        if isOwn o.body then { o with owned := false } else o }) := .setVol _ (posKept_letGo (s.vol p) h)
  unfold letGo
  dsimp only
  split
  · exact freed.trans (told_serveOwed p _)
  · exact freed

/-! ## Grants -/

theorem posKept_given (v : PosState) (slice : Option Nat) : PosKept v (v.given slice) :=
  PosKept.trans (w := { v with orders := v.orders ++ [{ body := .heatOn, owned := true, tag := none }] })
    (.append v fun _ => rfl) (.of_orders rfl (fun _ => rfl) rfl)

/-- A change of the grant of the position named, and of what waits. -/
theorem Told.regrant (f : PosState → PosState) (g : HeatState → HeatState) (hm : ∀ v, (f v).marks = v.marks)
    (hc : ∀ v, (f v).changed = true) (ho : ∀ v, (f v).orders = v.orders)
    (hqueue : ∀ h q, q ≠ p → q ∈ (g h).queue → q ∈ h.queue) (hsag : ∀ h, (g h).sag = h.sag) (s : State) :
    Told p s ((s.setVol p f).setHeat g) := by
  refine GrantStep.told ?_ (.of_vol (fun q hne => vol_setVol_ne f hne s) ?_ (hqueue s.heat) (hsag s.heat))
    (.inl ⟨rfl, rfl⟩)
  · have heta : g s.heat = { s.heat with queue := (g s.heat).queue, order := (g s.heat).order } :=
      congrArg (fun x => ({ g s.heat with sag := x } : HeatState)) (hsag s.heat)
    exact congrArg (fun k : HeatState => ({ s.setVol p f with heat := k } : State)) heta
  · rw [State.vol_setHeat_same, State.vol_setVol, if_pos rfl]
    exact .of_orders (hm _) (fun _ => hc _) (ho _)

theorem told_endGrant (p : PosIx) (s : State) : Told p s (endGrant p s) :=
  .regrant (fun v => { v with grant := .none, slice := none, changed := true })
    (fun h => { h with queue := h.queue.erase p, order := h.order.erase p })
    (fun _ => rfl) (fun _ => rfl) (fun _ => rfl) (fun _ _ _ h => List.mem_of_mem_erase h) (fun _ => rfl) s

theorem told_startRelease (p : PosIx) (s : State) : Told p s (startRelease p s) :=
  .regrant (fun v => { v with grant := .releasing, slice := none, changed := true })
    (fun h => { h with order := h.order.erase p })
    (fun _ => rfl) (fun _ => rfl) (fun _ => rfl) (fun _ _ _ h => h) (fun _ => rfl) s

theorem told_joinQueue (p : PosIx) (s : State) : Told p s (joinQueue p s) :=
  .regrant (fun v => { v with grant := .queued, changed := true }) (fun h => { h with queue := h.queue ++ [p] })
    (fun _ => rfl) (fun _ => rfl) (fun _ => rfl)
    (fun _ _ hne h => (List.mem_append.mp h).resolve_right fun h => hne (List.mem_singleton.mp h)) (fun _ => rfl) s

/-- Granting changes positions that wait, and nothing under SAG (R127). -/
theorem told_evaluate (p : PosIx) (s : State) : Told p s (evaluate s) := by
  refine evaluate_induction (motive := Told p) (Told.refl p) (fun s x rest t hq hm h => Told.trans ?_ h) s
  obtain ⟨v, order, queue, heq, hsub, hchanged, hv⟩ := grantHead_spec hq
  have hvol : ∀ q, q ≠ x → (grantHead x s).vol q = s.vol q := fun q hne => vol_grantHead_of_ne hq hne
  have hqueue : ∀ q, q ∈ (grantHead x s).heat.queue → q ∈ s.heat.queue := fun q hmem => by
    rw [heq] at hmem
    rw [hq]
    exact List.mem_cons_of_mem _ (hsub.subset hmem)
  have hx : PosKept (s.vol x) ((grantHead x s).vol x) := by
    rw [heq]
    change PosKept _ ((s.setVol x fun _ => v).vol x)
    rw [State.vol_setVol, if_pos rfl]
    rcases hv with rfl | rfl
    · exact posKept_given _ _
    · exact .of_orders rfl (fun _ => rfl) rfl
  refine GrantStep.told (by rw [heq]; rfl) ⟨fun q => ?_, fun q _ hout => ?_, fun hsag => ?_, by rw [heq]⟩
    (.inl (by rw [heq]; exact ⟨rfl, rfl⟩))
  · by_cases he : q = x
    · subst he; exact hx
    · rw [hvol q he]; exact .refl _
  · have hne : q ≠ x := fun e => hout (by rw [e, hq]; exact List.mem_cons_self)
    exact ⟨hvol q hne, mt (hqueue q) hout⟩
  · exact absurd (State.mayGrant_iff.mp hm).1 hsag

/-- A position that does not wait for a grant is not touched by granting (R127). -/
theorem evaluate_idle (h : q ∉ s.heat.queue) : (evaluate s).vol q = s.vol q ∧ q ∉ (evaluate s).heat.queue := by
  obtain ⟨p, hp⟩ : ∃ p : PosIx, q ≠ p := ⟨if q = 0 then 1 else 0, by
    split
    · next e => rw [e]; decide
    · next e => exact e⟩
  exact (told_evaluate p s).kept.others q hp h

theorem told_activatePending (p : PosIx) (s : State) : Told p s (activatePending s) := by
  unfold activatePending
  split
  · exact .refl p s
  · next n hn =>
    split
    · exact GrantStep.told rfl (.of_same p rfl rfl) (.inr ⟨n, hn, rfl, rfl⟩)
    · exact .refl p s

theorem told_committedFell (p : PosIx) (s : State) : Told p s (committedFell s) :=
  (told_activatePending p s).trans (told_evaluate p _)

theorem committedFell_idle (h : q ∉ s.heat.queue) :
    (committedFell s).vol q = s.vol q ∧ q ∉ (committedFell s).heat.queue := by
  obtain ⟨_, _, _, he⟩ := activatePending_eq s
  have hvol : (activatePending s).vol q = s.vol q := by rw [he]; rfl
  have hout : q ∉ (activatePending s).heat.queue := by rw [he]; exact h
  exact ⟨(evaluate_idle hout).1.trans hvol, (evaluate_idle hout).2⟩

theorem told_heatOnCancelled (p : PosIx) (s : State) : Told p s (heatOnCancelled p s) := by
  unfold heatOnCancelled
  split
  · have ended := (told_endGrant p s).trans (told_activatePending p _)
    dsimp only
    split
    · exact (ended.trans (told_joinQueue p _)).trans (told_evaluate p _)
    · exact ended.trans (told_evaluate p _)
  · exact .refl p s

/-! ## The session of the position -/

theorem room_journalled (e : JournalEntry) (s : State) : RoomStep s (journalled e s) := by
  unfold RoomStep
  rw [journalled_eq, applyEntry_eq]

/-- A hold operation with the session change of the position named (R67, R68). -/
theorem Stirred.journalled (e : JournalEntry) (hset : e.settlement = none)
    (hses : ∀ q, q ≠ p → (e.session.sessions s.ret.sessions)[q.val] = s.ret.sessions[q.val]) :
    Stirred p s (journalled e s) where
  room := room_journalled e s
  sessions q hq := by
    rw [session_journalled]
    exact hses q hq
  settlements := by
    rw [journalled_ret, applyEntry_eq, hset]
    exact ⟨rfl, rfl⟩
  answers x i hi _ := by
    rw [journalled_eq]
    exact hi
  kept := .of_same p (by rw [journalled_eq]) (by rw [journalled_eq])
  budgets := .inl (by rw [journalled_ret, applyEntry_eq]; exact ⟨rfl, rfl⟩)

theorem Stirred.setSession (f : Option Session → Option Session) : Stirred p s (s.setSession p f) where
  room := rfl
  sessions q hq := by rw [State.session_setSession, if_neg (Ne.symm hq)]
  settlements := ⟨rfl, rfl⟩
  answers _ _ hi _ := hi
  kept := .of_same p rfl rfl
  budgets := .inl ⟨rfl, rfl⟩

/-- An ANSWER that joins an outbox leaves every item but the oldest waiting TEXT (R54, R55). -/
theorem mem_placeAnswer {box : List Item} {i x : Item} (hx : x ∈ box) (hw : x.waitingText = false) :
    x ∈ placeAnswer i box := by
  have split_mem : ∀ box : List Item, x ∈ box → x ∈ box.takeWhile (fun x => !x.waitingText)
      ++ i :: box.dropWhile (fun x => !x.waitingText) := fun box h => by
    rw [← List.takeWhile_append_dropWhile (p := fun x : Item => !x.waitingText) (l := box)] at h
    exact (List.mem_append.mp h).elim (List.mem_append_left _) fun h =>
      List.mem_append_right _ (List.mem_cons_of_mem _ h)
  have herase : x ∈ box.eraseP Item.waitingText := (List.mem_eraseP_of_neg (by simp [hw])).mpr hx
  unfold placeAnswer
  dsimp only
  split
  · exact split_mem _ hx
  · split
    · exact split_mem _ herase
    · exact herase

theorem stirred_queueAnswer (x : TermIx) (a : Answer) (busy : Bool) (s : State) :
    Stirred p s (queueAnswer x a busy s) where
  room := rfl
  sessions _ _ := rfl
  settlements := ⟨rfl, rfl⟩
  answers y i hi hw := by
    unfold queueAnswer
    rw [State.terminal_setTerm]
    split
    · next e =>
      subst e
      exact mem_placeAnswer hi hw
    · exact hi
  kept := .of_same p rfl rfl
  budgets := .inl ⟨rfl, rfl⟩

theorem stirred_sendDecline (x : TermIx) (tag : Byte) (reason : DeclineReason) (id : CardId) (s : State) :
    Stirred p s (sendDecline x tag reason id s) := by
  unfold sendDecline sendAnswer
  split
  · exact stirred_queueAnswer ..
  · exact .refl p s

/-- A STARTING session that is cancelled (R102). -/
theorem stirred_cancelSession (reason : DeclineReason) (s : State) : Stirred p s (cancelSession p reason s) := by
  unfold cancelSession
  split
  · exact .refl p s
  · next ses hs =>
    have lowered : Stirred p s (lowerHold ses.cardId ses.hold (.removal p) (letGo OrderBody.isStart p s)) :=
      (told_letGo OrderBody.isStart ⟨rfl, rfl⟩ p s).toStirred.trans (.journalled _ rfl fun q hq => session_set _ hq)
    exact ((lowered.trans (told_committedFell p _).toStirred).trans (stirred_sendDecline ..)).trans
      (told_markChanged p _).toStirred

theorem told_cancelIfStarting (reason : DeclineReason) (s : State) : Told p s (cancelIfStarting p reason s) := by
  unfold cancelIfStarting
  split
  · next hst =>
    refine (stirred_cancelSession reason s).told fun hq => ?_
    cases hs : s.session p with
    | none =>
      rw [State.sessionIs, hs] at hst
      exact nomatch hst
    | some ses =>
      rw [State.sessionIs, hs] at hst
      exact (hq ses hs).1 (by simpa using hst)
  · exact .refl p s

section withdrawal

variable {wd : PosIx → State → State} (hw : ∀ s, Told p s (wd p s))
include hw

theorem stirred_goEndingWith (s : State) : Stirred p s (goEndingWith wd p s) := by
  have set : ∀ f, Stirred p s (s.setSession p f) := fun f => .setSession f
  unfold goEndingWith
  dsimp only
  refine Stirred.trans ?_ (told_markChanged p _).toStirred
  refine Stirred.trans ?_ (hw _).toStirred
  split
  · exact (set _).trans (told_appendOrder p rfl _).toStirred
  · exact set _

theorem told_extensionFailWith (reason : DeclineReason) (s : State) :
    Told p s (extensionFailWith wd p reason s) := by
  unfold extensionFailWith
  split
  · exact .refl p s
  · next ses hs =>
    split
    · exact .refl p s
    · next e hext =>
      refine Stirred.told ?_ fun hq => by
        rw [(hq ses hs).2] at hext
        exact nomatch hext
      have lowered : Stirred p s (lowerHold ses.cardId e.hold
          (.record p { ses with ext := none, hold := ses.hold - e.hold }) (letGo OrderBody.isExtend p s)) :=
        (told_letGo OrderBody.isExtend ⟨rfl, rfl⟩ p s).toStirred.trans (.journalled _ rfl fun q hq => session_set _ hq)
      have declined := lowered.trans (stirred_sendDecline e.term e.reqTag reason ses.cardId _)
      dsimp only
      split
      · exact declined.trans (stirred_goEndingWith hw _)
      · exact declined

theorem told_reportCancelled (o : Order) (s : State) : Told p s (reportCancelled wd p o s) := by
  unfold reportCancelled
  split
  · split
    · exact told_cancelIfStarting _ s
    · exact .refl p s
  · split
    · exact told_extensionFailWith hw _ s
    · exact .refl p s
  · exact told_heatOnCancelled p s
  all_goals exact .refl p s

/-- A removed order is reported, and an owed display order tried (R27, R35, R40). -/
theorem told_afterRemoval (removed : Option Order) (s : State) : Told p s (afterRemoval wd p removed s) := by
  unfold afterRemoval
  split
  · exact .refl p s
  · split
    · exact .setVol_marks _ (fun _ => rfl) (fun _ h => h) fun _ => rfl
    · exact (told_reportCancelled hw _ s).trans (told_serveOwed p _)

end withdrawal

/-! ## HALT and HEAT_OFF -/

theorem mem_insertAtFront {o x : Order} {q : List Order} : x ∈ insertAtFront o q ↔ x = o ∨ x ∈ q := by
  cases q with
  | nil => simp [insertAtFront]
  | cons h t =>
    change x ∈ (if h.undelivered then o :: h :: t else h :: o :: t) ↔ _
    split
    · exact List.mem_cons
    · simp [or_left_comm]

theorem mem_insertBehindHalt {o x : Order} {q : List Order} : x ∈ insertBehindHalt o q ↔ x = o ∨ x ∈ q := by
  cases q with
  | nil => simp [insertBehindHalt]
  | cons h t =>
    change x ∈ (if h.undelivered && h.body == .halt then h :: o :: t else o :: h :: t) ↔ _
    split
    · simp [or_left_comm]
    · exact List.mem_cons

theorem mem_insertHeatOff {o x : Order} {q : List Order} : x ∈ insertHeatOff o q ↔ x = o ∨ x ∈ q := by
  cases q with
  | nil => simp [insertHeatOff]
  | cons h t =>
    change x ∈ (if h.undelivered then insertBehindHalt o (h :: t) else h :: insertBehindHalt o t) ↔ _
    split
    · exact mem_insertBehindHalt
    · rw [List.mem_cons, mem_insertBehindHalt, List.mem_cons]
      exact or_left_comm

theorem mem_place {u : Urgent} {x : Order} {q : List Order} : x ∈ u.place q ↔ x = newOrder u.body ∨ x ∈ q := by
  cases u with
  | halt => exact mem_insertAtFront
  | heatOff => exact mem_insertHeatOff

/-- A queue that took a HALT or HEAT_OFF, or lost orders that are neither. -/
theorem posKept_urgent {v : PosState} {orders : List Order} {u : Urgent}
    (hlost : ∀ o ∈ v.orders, o ∉ orders → o.body ≠ .halt ∧ o.body ≠ .heatOff)
    (hnew : ∀ o ∈ orders, o ∈ v.orders ∨ o = newOrder u.body) : PosKept v { v with orders := orders } := by
  refine ⟨rfl, id, fun b hb ⟨o, ho, hbody⟩ => ⟨o, ?_, hbody⟩, fun o ho _ hown => ?_⟩
  · by_contra hnot
    obtain ⟨h1, h2⟩ := hlost o ho hnot
    rcases hb with rfl | rfl
    · exact h1 hbody
    · exact h2 hbody
  · rcases hnew o ho with h | rfl
    · exact h
    · cases u <;> exact nomatch hown

theorem mem_makeRoom {o : Order} {q : List Order} (ho : o ∈ q) (hnot : o ∉ (makeRoom q).1) :
    o.displaceable = true := by
  unfold makeRoom at hnot
  split at hnot
  · exact absurd ho hnot
  · by_contra hd
    refine hnot (List.mem_reverse.mpr ((List.mem_eraseP_of_neg hd).mpr (List.mem_reverse.mpr ho)))

theorem bodies_of_displaceable {o : Order} (h : o.displaceable = true) : o.body ≠ .halt ∧ o.body ≠ .heatOff := by
  unfold Order.displaceable at h
  simp only [Bool.and_eq_true, Bool.not_eq_true', beq_eq_false_iff_ne, ne_eq] at h
  exact ⟨h.1.2, h.2⟩

theorem bodies_of_cancels {u : Urgent} {o : Order} (h : u.cancels o = true) : o.body ≠ .halt ∧ o.body ≠ .heatOff := by
  cases u with
  | halt =>
    have hs : o.body.strippable = true := (Bool.and_eq_true_iff.mp h).2
    constructor <;> intro e <;> rw [e] at hs <;> exact nomatch hs
  | heatOff =>
    have hb : o.body = .heatOn := by simpa using (Bool.and_eq_true_iff.mp h).2
    rw [hb]
    exact ⟨(nomatch ·), (nomatch ·)⟩

theorem posKept_step (u : Urgent) (v : PosState) : PosKept v { v with orders := (u.step v.orders).orders } := by
  rcases u.step_cases v.orders with ⟨before, o, after, hq, hc, -, he⟩ | ⟨-, ⟨-, he⟩ | ⟨-, -, he⟩ | ⟨-, -, he⟩⟩
  · rw [he]
    refine posKept_urgent (u := u) (fun x hx hnot => ?_) fun x hx => .inl ?_
    · rw [hq] at hx
      have hxo : x = o := by
        by_contra hne
        refine hnot ?_
        rcases List.mem_append.mp hx with h | h
        · exact List.mem_append_left _ h
        · exact List.mem_append_right _ ((List.mem_cons.mp h).resolve_left hne)
      rw [hxo]
      exact bodies_of_cancels hc
    · rw [hq]
      rcases List.mem_append.mp hx with h | h
      · exact List.mem_append_left _ h
      · exact List.mem_append_right _ (List.mem_cons_of_mem _ h)
  · rw [he]
    exact posKept_urgent (u := u) (fun x hx hnot => absurd hx hnot) fun x hx => .inl hx
  · rw [he]
    exact posKept_urgent (u := u) (fun x hx hnot => absurd (mem_place.mpr (.inr hx)) hnot)
      fun x hx => (mem_place.mp hx).symm
  · rw [he]
    exact posKept_urgent (u := u) (fun x hx hnot => bodies_of_displaceable (mem_makeRoom hx hnot))
      fun x hx => .inl ((makeRoom_sublist _).subset hx)

theorem posKept_placeAtOnce (u : Urgent) (v : PosState) :
    PosKept v { v with orders := (u.placeAtOnce v.orders).orders } := by
  unfold Urgent.placeAtOnce
  split
  · exact posKept_urgent (u := u) (fun x hx hnot => absurd hx hnot) fun x hx => .inl hx
  · dsimp only
    split
    · refine posKept_urgent (u := u) (fun x hx hnot => bodies_of_displaceable (mem_makeRoom hx fun h =>
        hnot (mem_place.mpr (.inr h)))) fun x hx => ?_
      rcases mem_place.mp hx with h | h
      · exact .inr h
      · exact .inl ((makeRoom_sublist _).subset h)
    · exact posKept_urgent (u := u) (fun x hx hnot => bodies_of_displaceable (mem_makeRoom hx hnot))
        fun x hx => .inl ((makeRoom_sublist _).subset hx)

section withdrawal

variable {wd : PosIx → State → State} (hw : ∀ s, Told p s (wd p s))
include hw

theorem told_makeStep (n : UrgentStep) (s : State) (hn : PosKept (s.vol p) { s.vol p with orders := n.orders }) :
    Told p s (makeStep wd p n s) :=
  (Told.setVol (fun v => { v with orders := n.orders }) hn).trans (told_afterRemoval hw _ _)

theorem told_askUrgentFor (u : Urgent) (k : Nat) : ∀ s : State, Told p s (askUrgentFor wd u p k s) := by
  induction k with
  | zero => exact fun s => told_makeStep hw _ s (posKept_placeAtOnce u _)
  | succ k ih =>
    intro s
    have hstep := told_makeStep hw (u.step (s.vol p).orders) s (posKept_step u _)
    unfold askUrgentFor
    dsimp only
    split
    · exact hstep
    · exact hstep.trans (ih _)

end withdrawal

theorem told_withdraw (p : PosIx) (s : State) : Told p s (withdraw p s) := by
  unfold withdraw
  split
  · exact .refl p s
  · exact .refl p s
  · exact (told_endGrant p s).trans (told_evaluate p _)
  · exact (told_startRelease p s).trans (told_askUrgentFor (Told.refl p) _ _ _)

theorem told_askHeatOff (p : PosIx) (s : State) : Told p s (askHeatOff p s) :=
  told_askUrgentFor (told_withdraw p) _ _ s

theorem told_askHalt (p : PosIx) (s : State) : Told p s (askHalt p s) :=
  told_askUrgentFor (told_withdraw p) _ _ s

theorem stirred_goEnding (p : PosIx) (s : State) : Stirred p s (goEnding p s) :=
  stirred_goEndingWith (told_withdraw p) s

theorem told_extensionFail (p : PosIx) (reason : DeclineReason) (s : State) : Told p s (extensionFail p reason s) :=
  told_extensionFailWith (told_withdraw p) reason s

end Sys2Proof.Machine
end

section
/-! The withdrawal of a grant, and the expiry of a slice (R38, R124, R128, R129, R133). -/

namespace Sys2Proof.Machine

variable {s t u : State} {p q : PosIx}

/-! ## The law of a queue under the operations of the room -/

theorem queueLaw_move (m : Move s t) (h : QueueLaw (s.vol p).orders) : QueueLaw (t.vol p).orders := by
  have grants : ∀ (x : PosIx) {f : PosState → PosState} (g : HeatState → HeatState) (u : State),
      (∀ v, (f v).orders = v.orders) → QueueLaw (u.vol p).orders →
      QueueLaw (((u.setVol x f).setHeat g).vol p).orders := fun x f g u hf h => by
    rw [State.vol_setHeat_same, setVol_orders x hf]
    exact h
  have journal : ∀ e, QueueLaw ((journalled e s).vol p).orders := fun e => by
    rw [journalled_eq]
    exact h
  cases m with
  | vol x f _ _ hq =>
    rw [State.vol_setVol]
    split
    · next e => subst e; exact hq h
    · exact h
  | term => exact h
  | bus => exact h
  | record => exact h
  | session => exact h
  | fault => exact h
  | endGrant x => exact grants x _ s (fun _ => rfl) h
  | startRelease x => exact grants x _ s (fun _ => rfl) h
  | joinQueue x => exact grants x _ s (fun _ => rfl) h
  | giveGrant x =>
    exact (congrArg QueueLaw (setVol_orders x (f := fun v => { v with
      grant := .granted, slice := if s.isDryer x then some s.sliceLength else none, changed := true })
      (fun _ => rfl) _ p)).mpr h
  | budget => exact h
  | hold => exact journal _
  | cancel => exact journal _
  | close => exact journal _
  | beginSession => exact journal _

theorem queueLaw_moves (m : Moves s t) (h : QueueLaw (s.vol p).orders) : QueueLaw (t.vol p).orders := by
  induction m with
  | refl => exact h
  | tail _ m ih => exact queueLaw_move m ih

/-- A full queue that holds no HALT, or no HEAT_OFF, holds an order that may make room (R40). -/
theorem exists_displaceable {u : Urgent} {q : List Order} (h : QueueLaw q) (hfull : Config.orderCapacity ≤ q.length)
    (hm : u.merges q = false) : q.any Order.displaceable = true := by
  obtain ⟨-, htags, hhalt, hoff⟩ := h
  have hnone : ∀ o ∈ q, o.undelivered = true → o.body ≠ u.body := by simpa [Urgent.merges] using hm
  by_contra hno
  have hbody : ∀ o ∈ q, o.undelivered = true → o.body = .halt ∨ o.body = .heatOff := fun o ho hu => by
    by_contra hne
    obtain ⟨h1, h2⟩ := not_or.mp hne
    exact hno (List.any_eq_true.mpr ⟨o, ho, by simp [Order.displaceable, hu, h1, h2]⟩)
  have hmem : ∀ o ∈ q.tail, o ∈ q := fun o ho => List.mem_of_mem_tail ho
  have hund : ∀ o ∈ q.tail, o.undelivered = true := fun o ho => by simp [Order.undelivered, htags o ho]
  have hlen : 3 ≤ q.tail.length := by
    rw [List.length_tail]
    have : Config.orderCapacity = 4 := rfl
    omega
  have hall : ∀ b : OrderBody, (∀ o ∈ q.tail, o.body = b) → 3 ≤ q.countP fun o => o.undelivered && o.body == b := by
    intro b hb
    have : q.tail.countP (fun o => o.undelivered && o.body == b) = q.tail.length :=
      List.countP_eq_length.mpr fun o ho => by simp [hund o ho, hb o ho]
    have := (List.tail_sublist q).countP_le (p := fun o : Order => o.undelivered && o.body == b)
    omega
  cases u with
  | halt =>
    have := hall .heatOff fun o ho => (hbody o (hmem o ho) (hund o ho)).resolve_left (hnone o (hmem o ho) (hund o ho))
    omega
  | heatOff =>
    have := hall .halt fun o ho => (hbody o (hmem o ho) (hund o ho)).resolve_right (hnone o (hmem o ho) (hund o ho))
    omega

theorem makeRoom_length {q : List Order} (hfull : Config.orderCapacity ≤ q.length)
    (h : q.any Order.displaceable = true) : (makeRoom q).1.length = q.length - 1 := by
  unfold makeRoom
  rw [if_neg (Nat.not_lt.mpr hfull)]
  obtain ⟨o, ho, hd⟩ := List.any_eq_true.mp h
  rw [List.length_reverse, List.length_eraseP_of_mem (List.mem_reverse.mpr ho) hd, List.length_reverse]

theorem makeRoom_removed {q : List Order} {o : Order} (h : (makeRoom q).2 = some o) :
    o ∈ q ∧ o.displaceable = true := by
  unfold makeRoom at h
  split at h
  · exact nomatch h
  · exact ⟨List.mem_reverse.mp (List.mem_of_find?_eq_some h), List.find?_some h⟩

/-! ## A RELEASING position while its HEAT_OFF is asked for -/

/-- A RELEASING position whose HEAT_OFF can no longer be absorbed, and that does not wait for a grant. -/
structure Releasing (p : PosIx) (s : State) : Prop where
  grant : (s.vol p).grant = .releasing
  slice : (s.vol p).slice = none
  idle : p ∉ s.heat.queue
  noHeatOn : ∀ o ∈ (s.vol p).orders, o.tag = none → o.body ≠ .heatOn

/-- An operation that leaves a RELEASING position RELEASING, and under SAG the queue as it is. -/
structure KeepsRelease (p : PosIx) (s t : State) : Prop where
  stays : Releasing p s → Releasing p t
  queue : Releasing p s → s.heat.sag ≠ .normal → t.heat.queue = s.heat.queue
  sag : t.heat.sag = s.heat.sag

theorem KeepsRelease.refl (p : PosIx) (s : State) : KeepsRelease p s s := ⟨id, fun _ _ => rfl, rfl⟩

theorem KeepsRelease.trans (h : KeepsRelease p s t) (k : KeepsRelease p t u) : KeepsRelease p s u :=
  ⟨fun r => k.stays (h.stays r), fun r hs => (k.queue (h.stays r) (h.sag ▸ hs)).trans (h.queue r hs),
   k.sag.trans h.sag⟩

theorem KeepsRelease.of_same (hpos : t.pos = s.pos) (hheat : t.heat = s.heat) : KeepsRelease p s t := by
  have hvol : t.vol p = s.vol p := by rw [State.vol, hpos]; rfl
  refine ⟨fun ⟨h1, h2, h3, h4⟩ => ⟨?_, ?_, ?_, ?_⟩, fun _ _ => by rw [hheat], by rw [hheat]⟩
  · rw [hvol]; exact h1
  · rw [hvol]; exact h2
  · rw [hheat]; exact h3
  · rw [hvol]; exact h4

theorem KeepsRelease.setVol (f : PosState → PosState) (hg : ∀ v, (f v).grant = v.grant ∧ (f v).slice = v.slice)
    (ho : ∀ o ∈ (f (s.vol p)).orders, o.tag = none → o.body = .heatOn →
      ∃ x ∈ (s.vol p).orders, x.tag = none ∧ x.body = .heatOn) : KeepsRelease p s (s.setVol p f) := by
  have hvol : (s.setVol p f).vol p = f (s.vol p) := by rw [State.vol_setVol, if_pos rfl]
  refine ⟨fun ⟨h1, h2, h3, h4⟩ => ⟨?_, ?_, h3, ?_⟩, fun _ _ => rfl, rfl⟩
  · rw [hvol, (hg _).1, h1]
  · rw [hvol, (hg _).2, h2]
  · rw [hvol]
    intro o hmem htag hbody
    obtain ⟨x, hx, hxt, hxb⟩ := ho o hmem htag hbody
    exact h4 x hx hxt hxb

/-- A change of the queue that brings no HEAT_ON. -/
theorem KeepsRelease.orders (f : PosState → PosState) (hg : ∀ v, (f v).grant = v.grant ∧ (f v).slice = v.slice)
    (ho : ∀ o ∈ (f (s.vol p)).orders, o ∈ (s.vol p).orders ∨ o.body ≠ .heatOn) : KeepsRelease p s (s.setVol p f) :=
  .setVol f hg fun o hmem htag hbody => ⟨o, (ho o hmem).resolve_right (not_not.mpr hbody), htag, hbody⟩

theorem mem_queueDisplay {body : OrderBody} {o : Order} {q : List Order} (h : o ∈ (queueDisplay body q).1) :
    o ∈ q ∨ o = newOrder body := by
  unfold queueDisplay at h
  dsimp only at h
  split at h
  · exact (List.mem_append.mp h).imp (fun h => (List.mem_filter.mp h).1) List.mem_singleton.mp
  · exact .inl (List.mem_filter.mp h).1

theorem keepsRelease_askDisplay (p : PosIx) (s : State) : KeepsRelease p s (askDisplay p s) := by
  unfold askDisplay
  refine .orders _ (fun _ => ⟨rfl, rfl⟩) fun o ho => ?_
  rcases mem_queueDisplay ho with h | rfl
  · exact .inl h
  · refine .inr ?_
    change (if s.outOfOrder p then OrderBody.disable else .enable) ≠ .heatOn
    split <;> exact fun e => nomatch e

theorem keepsRelease_serveOwed (p : PosIx) (s : State) : KeepsRelease p s (serveOwed p s) := by
  unfold serveOwed
  split
  · exact keepsRelease_askDisplay p s
  · exact .refl p s

theorem keepsRelease_letGo (isOwn : OrderBody → Bool) (p : PosIx) (s : State) :
    KeepsRelease p s (letGo isOwn p s) := by
  have freed : KeepsRelease p s (s.setVol p fun v => { v with
      orders := ((s.vol p).orders.filter fun o => !(o.undelivered && isOwn o.body && o.owned)).map fun o =>
        if isOwn o.body then { o with owned := false } else o }) := by
    refine .setVol _ (fun _ => ⟨rfl, rfl⟩) fun o ho htag hbody => ?_
    obtain ⟨x, hx, rfl⟩ := List.mem_map.mp ho
    refine ⟨x, (List.mem_filter.mp hx).1, ?_⟩
    split at htag
    · next h =>
      rw [if_pos h] at hbody
      exact ⟨htag, hbody⟩
    · next h =>
      rw [if_neg h] at hbody
      exact ⟨htag, hbody⟩
  unfold letGo
  dsimp only
  split
  · exact freed.trans (keepsRelease_serveOwed p _)
  · exact freed

theorem keepsRelease_journalled (e : JournalEntry) (s : State) : KeepsRelease p s (journalled e s) :=
  .of_same (by rw [journalled_eq]) (by rw [journalled_eq])

theorem keepsRelease_committedFell (p : PosIx) (s : State) : KeepsRelease p s (committedFell s) := by
  obtain ⟨_, _, _, he⟩ := activatePending_eq s
  refine ⟨fun ⟨h1, h2, h3, h4⟩ => ?_, fun _ hsag => ?_, (told_committedFell p s).kept.sag⟩
  · obtain ⟨hvol, hout⟩ := committedFell_idle h3
    exact ⟨by rw [hvol]; exact h1, by rw [hvol]; exact h2, hout, by rw [hvol]; exact h4⟩
  · rw [committedFell, evaluate_of_sag (by rw [he]; exact hsag), he]

theorem keepsRelease_sendDecline (x : TermIx) (tag : Byte) (reason : DeclineReason) (id : CardId) (s : State) :
    KeepsRelease p s (sendDecline x tag reason id s) := by
  unfold sendDecline sendAnswer
  split
  · exact .of_same rfl rfl
  · exact .refl p s

theorem keepsRelease_markChanged (p : PosIx) (s : State) : KeepsRelease p s (s.markChanged p) :=
  .orders _ (fun _ => ⟨rfl, rfl⟩) fun _ h => .inl h

theorem keepsRelease_cancelIfStarting (p : PosIx) (reason : DeclineReason) (s : State) :
    KeepsRelease p s (cancelIfStarting p reason s) := by
  unfold cancelIfStarting
  split
  · unfold cancelSession
    split
    · exact .refl p s
    · exact ((((keepsRelease_letGo _ p s).trans (keepsRelease_journalled _ _)).trans
        (keepsRelease_committedFell p _)).trans (keepsRelease_sendDecline ..)).trans (keepsRelease_markChanged p _)
  · exact .refl p s

theorem keepsRelease_goEnding (p : PosIx) (s : State) : KeepsRelease p s (goEndingWith (fun _ s => s) p s) := by
  have set : ∀ f, KeepsRelease p s (s.setSession p f) := fun f => .of_same rfl rfl
  unfold goEndingWith
  dsimp only
  refine KeepsRelease.trans ?_ (keepsRelease_markChanged p _)
  split
  · refine (set _).trans (.orders _ (fun _ => ⟨rfl, rfl⟩) fun o ho => ?_)
    refine (List.mem_append.mp ho).imp_right fun h => ?_
    rw [List.mem_singleton.mp h]
    exact fun e => nomatch e
  · exact set _

theorem keepsRelease_extensionFail (p : PosIx) (reason : DeclineReason) (s : State) :
    KeepsRelease p s (extensionFailWith (fun _ s => s) p reason s) := by
  unfold extensionFailWith
  split
  · exact .refl p s
  · split
    · exact .refl p s
    · have declined := fun e : JournalEntry => ((keepsRelease_letGo OrderBody.isExtend p s).trans
        (keepsRelease_journalled (p := p) e _))
      dsimp only
      split
      · exact ((declined _).trans (keepsRelease_sendDecline ..)).trans (keepsRelease_goEnding p _)
      · exact (declined _).trans (keepsRelease_sendDecline ..)

/-- A removed order that is no HEAT_ON leaves the position RELEASING (R35, R129). -/
theorem keepsRelease_afterRemoval (p : PosIx) {removed : Option Order} (h : ∀ o, removed = some o → o.body ≠ .heatOn)
    (s : State) : KeepsRelease p s (afterRemoval (fun _ s => s) p removed s) := by
  unfold afterRemoval
  split
  · exact .refl p s
  · next o =>
    split
    · exact .orders _ (fun _ => ⟨rfl, rfl⟩) fun _ h => .inl h
    · refine KeepsRelease.trans ?_ (keepsRelease_serveOwed p _)
      unfold reportCancelled
      split
      · split
        · exact keepsRelease_cancelIfStarting p _ s
        · exact .refl p s
      · split
        · exact keepsRelease_extensionFail p _ s
        · exact .refl p s
      · next hb => exact absurd hb (h o rfl)
      all_goals exact .refl p s

/-! ## The steps of a HEAT_OFF -/

theorem not_cancels_iff {q : List Order} :
    (∀ o ∈ q, Urgent.heatOff.cancels o = false) ↔ ∀ o ∈ q, o.tag = none → o.body ≠ .heatOn := by
  simp [Urgent.cancels, Order.undelivered, Option.isNone_iff_eq_none]

theorem heatOffStands_iff {v : PosState} : v.heatOffStands = true ↔ ∃ o ∈ v.orders, o.body = .heatOff := by
  simp [PosState.heatOffStands]

theorem haltStands_iff {v : PosState} : v.haltStands = true ↔ ∃ o ∈ v.orders, o.body = .halt := by
  simp [PosState.haltStands]

theorem exists_of_merges {u : Urgent} {q : List Order} (h : u.merges q = true) : ∃ o ∈ q, o.body = u.body := by
  obtain ⟨o, ho, hb⟩ := List.any_eq_true.mp h
  exact ⟨o, ho, by simpa using (Bool.and_eq_true_iff.mp hb).2⟩

theorem withHeatOff_eq (q : List Order) :
    withHeatOff q = if Urgent.heatOff.merges q then q else Urgent.heatOff.place q := rfl

/-- A HEAT_OFF that removes nothing merges or takes its place (R38). -/
theorem askUrgentFor_heatOff_of_room (wd : PosIx → State → State) (k : Nat)
    (hon : ∀ o ∈ (s.vol p).orders, o.tag = none → o.body ≠ .heatOn)
    (hroom : (s.vol p).orders.length < 4 ∨ ∃ o ∈ (s.vol p).orders, o.tag = none ∧ o.body = .heatOff) :
    askUrgentFor wd .heatOff p (k + 1) s = s.setVol p fun v => { v with orders := withHeatOff (s.vol p).orders } := by
  have hnone := not_cancels_iff.mpr hon
  have hstep : Urgent.heatOff.step (s.vol p).orders
      = { orders := withHeatOff (s.vol p).orders, removed := none, finished := true } := by
    rw [withHeatOff_eq]
    rcases Urgent.heatOff.step_cases (s.vol p).orders with ⟨before, o, after, hq, hc, -, -⟩
      | ⟨-, ⟨hm, he⟩ | ⟨hm, -, he⟩ | ⟨hm, hfull, -⟩⟩
    · rw [hnone o (by rw [hq]; simp)] at hc
      exact nomatch hc
    · rw [he, hm]; rfl
    · rw [he, hm]; rfl
    · rcases hroom with h | ⟨o, ho, htag, hbody⟩
      · exact absurd h (Nat.not_lt.mpr hfull)
      · have : Urgent.heatOff.merges (s.vol p).orders = true :=
          List.any_eq_true.mpr ⟨o, ho, by simp [Order.undelivered, htag, hbody, Urgent.body]⟩
        rw [hm] at this
        exact nomatch this
  rw [askUrgentFor_last _ _ _ _ _ (by rw [hstep]), hstep, makeStep_none _ _ _ _ rfl]

theorem keepsRelease_urgent {orders : List Order} (h : ∀ o ∈ orders, o ∈ (s.vol p).orders ∨ o = newOrder .heatOff) :
    KeepsRelease p s (s.setVol p fun v => { v with orders := orders }) := by
  refine .orders _ (fun _ => ⟨rfl, rfl⟩) fun o ho => (h o ho).imp_right ?_
  rintro rfl
  exact fun e => nomatch e

theorem stands_setOrders {b : OrderBody} {orders : List Order} (h : ∃ o ∈ orders, o.body = b) :
    ∃ o ∈ ((s.setVol p fun v => { v with orders := orders }).vol p).orders, o.body = b := by
  rw [State.vol_setVol, if_pos rfl]
  exact h

/-- Room being made, a HALT or HEAT_OFF always finds its place (R40). -/
theorem stands_placeAtOnce {u : Urgent} {q : List Order} (h : QueueLaw q) :
    ∃ o ∈ (u.placeAtOnce q).orders, o.body = u.body := by
  unfold Urgent.placeAtOnce
  split
  · next hm => exact exists_of_merges hm
  · next hm =>
    have hlen : (makeRoom q).1.length < Config.orderCapacity := by
      by_cases hfull : Config.orderCapacity ≤ q.length
      · rw [makeRoom_length hfull (exists_displaceable h hfull (Bool.eq_false_iff.mpr hm))]
        have := h.1
        have : Config.orderCapacity = 4 := rfl
        omega
      · exact (makeRoom_sublist q).length_le.trans_lt (Nat.lt_of_not_le hfull)
    dsimp only
    rw [if_pos hlen]
    exact ⟨newOrder u.body, mem_place.mpr (.inl rfl), rfl⟩

/-- A RELEASING position that asks for HEAT_OFF, with no HEAT_ON to absorb it, gets it (R38, R40, R129). -/
theorem releasing_askUrgentFor (k : Nat) : ∀ {s : State}, Releasing p s → QueueLaw (s.vol p).orders →
    KeepsRelease p s (askUrgentFor (fun _ s => s) .heatOff p k s)
    ∧ ((askUrgentFor (fun _ s => s) .heatOff p k s).vol p).heatOffStands = true := by
  induction k with
  | zero =>
    intro s hr hq
    unfold askUrgentFor makeStep
    have hremoved : ∀ o, (Urgent.heatOff.placeAtOnce (s.vol p).orders).removed = some o → o.body ≠ .heatOn := fun o ho => by
      unfold Urgent.placeAtOnce at ho
      split at ho
      · exact nomatch ho
      · obtain ⟨hmem, hd⟩ := makeRoom_removed ho
        exact hr.noHeatOn o hmem (by simpa [Order.displaceable, Order.undelivered] using
          (Bool.and_eq_true_iff.mp (Bool.and_eq_true_iff.mp hd).1).1)
    have hplaced : ∀ o ∈ (Urgent.heatOff.placeAtOnce (s.vol p).orders).orders,
        o ∈ (s.vol p).orders ∨ o = newOrder .heatOff := fun o ho => by
      unfold Urgent.placeAtOnce at ho
      split at ho
      · exact .inl ho
      · dsimp only at ho
        split at ho
        · exact (mem_place.mp ho).symm.imp_left fun h => (makeRoom_sublist _).subset h
        · exact .inl ((makeRoom_sublist _).subset ho)
    refine ⟨(keepsRelease_urgent hplaced).trans (keepsRelease_afterRemoval p hremoved _), heatOffStands_iff.mpr ?_⟩
    exact ((told_afterRemoval (Told.refl p) _ _).kept.pos p).stands .heatOff (.inr rfl)
      (stands_setOrders (stands_placeAtOnce (u := .heatOff) hq))
  | succ k ih =>
    intro s hr hq
    rcases Urgent.heatOff.step_cases (s.vol p).orders with ⟨before, o, after, hb, hc, -, -⟩
      | ⟨-, ⟨hm, he⟩ | ⟨hm, -, he⟩ | ⟨hm, hfull, he⟩⟩
    · rw [not_cancels_iff.mpr hr.noHeatOn o (by rw [hb]; simp)] at hc
      exact nomatch hc
    · rw [askUrgentFor_last _ _ _ _ _ (by rw [he]), he, makeStep_none _ _ _ _ rfl]
      exact ⟨keepsRelease_urgent fun o ho => .inl ho, heatOffStands_iff.mpr (stands_setOrders (exists_of_merges hm))⟩
    · rw [askUrgentFor_last _ _ _ _ _ (by rw [he]), he, makeStep_none _ _ _ _ rfl]
      exact ⟨keepsRelease_urgent fun o ho => (mem_place (u := .heatOff).mp ho).symm,
        heatOffStands_iff.mpr (stands_setOrders ⟨newOrder .heatOff, mem_place (u := .heatOff).mpr (.inl rfl), rfl⟩)⟩
    · have hd := exists_displaceable hq hfull hm
      rw [askUrgentFor_next _ _ _ _ _ (by rw [he, hd]; rfl)]
      have hremoved : ∀ o, (makeRoom (s.vol p).orders).2 = some o → o.body ≠ .heatOn := fun o ho => by
        obtain ⟨hmem, hd⟩ := makeRoom_removed ho
        exact hr.noHeatOn o hmem (by simpa [Order.displaceable, Order.undelivered] using
          (Bool.and_eq_true_iff.mp (Bool.and_eq_true_iff.mp hd).1).1)
      have hstep : KeepsRelease p s (makeStep (fun _ s => s) p (Urgent.heatOff.step (s.vol p).orders) s) := by
        rw [he]
        exact (keepsRelease_urgent fun o ho => .inl ((makeRoom_sublist _).subset ho)).trans
          (keepsRelease_afterRemoval p hremoved _)
      have hlaw := queueLaw_moves (p := p) (makeStep_moves (fun _ s => s) (fun _ {_ _} h => h) p
        (Urgent.heatOff.step (s.vol p).orders) (QueueLaw.step _) (s := s) Relation.ReflTransGen.refl) hq
      obtain ⟨hkeeps, hstands⟩ := ih (hstep.stays hr) hlaw
      exact ⟨hstep.trans hkeeps, hstands⟩

/-! ## What a withdrawal does -/

theorem withdraw_of_ended (h : (s.vol p).grant = .none ∨ (s.vol p).grant = .releasing) : withdraw p s = s := by
  unfold withdraw
  rcases h with h | h <;> rw [h]

theorem withdraw_of_queued (h : (s.vol p).grant = .queued) : withdraw p s = evaluate (endGrant p s) := by
  unfold withdraw
  rw [h]

theorem withdraw_of_granted (h : (s.vol p).grant = .granted) :
    withdraw p s = askUrgentFor (fun _ s => s) .heatOff p 12 (startRelease p s) := by
  unfold withdraw
  rw [h]
  rfl

/-- The position as a grant that was withdrawn leaves it. -/
def PosState.ended (v : PosState) (g : Grant) (orders : List Order) : PosState :=
  { v with grant := g, slice := none, changed := true, orders := orders }

theorem vol_startRelease (p : PosIx) (s : State) :
    (startRelease p s).vol p = (s.vol p).ended .releasing (s.vol p).orders := by
  unfold startRelease
  rw [State.vol_setHeat_same, State.vol_setVol, if_pos rfl]
  rfl

theorem startRelease_orders (p : PosIx) (orders : List Order) (s : State) :
    (startRelease p s).setVol p (fun v => { v with orders := orders }) = { s with
      pos := s.pos.set p.val ((s.vol p).ended .releasing orders)
      heat := { s.heat with order := s.heat.order.erase p } } :=
  congrArg (State.setHeat fun h => { h with order := h.order.erase p }) (setVol_setVol p
    (fun v => { v with grant := .releasing, slice := none, changed := true }) (fun v => { v with orders := orders }) s)

/-- The state in which a grant has ended and its orders stand (R128). -/
def State.grantEnded (s : State) (p : PosIx) (orders : List Order) : State :=
  { s with
    pos := s.pos.set p.val ((s.vol p).ended .none orders)
    heat := { s.heat with queue := s.heat.queue.erase p, order := s.heat.order.erase p } }

theorem endGrant_eq (p : PosIx) (s : State) : endGrant p s = s.grantEnded p (s.vol p).orders := rfl

theorem vol_grantEnded (p : PosIx) (orders : List Order) (s : State) :
    (s.grantEnded p orders).vol p = (s.vol p).ended .none orders := by
  refine (State.vol_setVol p p (fun _ => (s.vol p).ended .none orders) s).trans (if_pos rfl)

/-- The withdrawal of a GRANTED grant whose HEAT_OFF finds a place (R38, R129). -/
theorem withdraw_of_room (hg : (s.vol p).grant = .granted)
    (hon : ∀ o ∈ (s.vol p).orders, o.tag = none → o.body ≠ .heatOn)
    (hroom : (s.vol p).orders.length < 4 ∨ ∃ o ∈ (s.vol p).orders, o.tag = none ∧ o.body = .heatOff) :
    withdraw p s = { s with
      pos := s.pos.set p.val ((s.vol p).ended .releasing (withHeatOff (s.vol p).orders))
      heat := { s.heat with order := s.heat.order.erase p } } := by
  have horders : ((startRelease p s).vol p).orders = (s.vol p).orders := by rw [vol_startRelease]; rfl
  rw [withdraw_of_granted hg, askUrgentFor_heatOff_of_room _ 11 (by rw [horders]; exact hon) (by rw [horders]; exact hroom),
    horders, startRelease_orders]

theorem HeatCore.not_mem_queue (h : HeatCore s) (hp : (s.vol p).grant ≠ .queued) : p ∉ s.heat.queue :=
  fun hmem => hp ((h.mem_queue p).mp hmem)

theorem releasing_startRelease (hs : HeatCore s) (hg : (s.vol p).grant = .granted)
    (hon : ∀ o ∈ (s.vol p).orders, o.tag = none → o.body ≠ .heatOn) : Releasing p (startRelease p s) := by
  have hv := vol_startRelease p s
  have hout : p ∉ s.heat.queue := hs.not_mem_queue (by rw [hg]; exact fun e => nomatch e)
  refine ⟨by rw [hv]; rfl, by rw [hv]; rfl, hout, ?_⟩
  rw [hv]
  exact hon

/-- The withdrawal of a GRANTED grant with no HEAT_ON to absorb the HEAT_OFF (R38, R40, R129). -/
theorem withdraw_releasing (hs : HeatCore s) (hq : QueueLaw (s.vol p).orders) (hg : (s.vol p).grant = .granted)
    (hon : ∀ o ∈ (s.vol p).orders, o.tag = none → o.body ≠ .heatOn) :
    Releasing p (withdraw p s) ∧ ((withdraw p s).vol p).heatOffStands = true
      ∧ (s.heat.sag ≠ .normal → (withdraw p s).heat.queue = s.heat.queue) := by
  have hr := releasing_startRelease hs hg hon
  obtain ⟨hkeeps, hstands⟩ := releasing_askUrgentFor 12 hr (by rw [vol_startRelease]; exact hq)
  rw [withdraw_of_granted hg]
  exact ⟨hkeeps.stays hr, hstands, fun hsag => hkeeps.queue hr hsag⟩

/-- The grant that a withdrawn HEAT_ON leaves: NONE, and in the queue again while heat is asked for (R128). -/
def State.afterAbsorbed (s : State) (p : PosIx) (orders : List Order) : State :=
  let w := activatePending (s.grantEnded p orders)
  evaluate (if (w.vol p).heatRequest && w.mayQueue p then joinQueue p w else w)

/-- A HEAT_OFF that an undelivered HEAT_ON absorbs (R38 step 1, R128). -/
theorem withdraw_absorbed (hs : HeatCore s) (hg : (s.vol p).grant = .granted) {before behind : List Order} {on : Order}
    (hq : (s.vol p).orders = before ++ on :: behind) (hon : on.tag = none ∧ on.body = .heatOn)
    (hbefore : ∀ o ∈ before, ¬ (o.tag = none ∧ o.body = .heatOn)) :
    withdraw p s = serveOwed p (s.afterAbsorbed p (before ++ behind)) := by
  have hcancels : ∀ o : Order, Urgent.heatOff.cancels o = true ↔ o.tag = none ∧ o.body = .heatOn := fun o => by
    simp [Urgent.cancels, Order.undelivered]
  have horders : ((startRelease p s).vol p).orders = before ++ on :: behind := by rw [vol_startRelease]; exact hq
  have hnot : ∀ o ∈ before, ¬ Urgent.heatOff.cancels o = true := fun o ho h => hbefore o ho ((hcancels o).mp h)
  have hstep : Urgent.heatOff.step ((startRelease p s).vol p).orders
      = { orders := before ++ behind, removed := some on, finished := true } := by
    rw [horders]
    unfold Urgent.step
    rw [if_pos (List.any_eq_true.mpr ⟨on, by simp, (hcancels on).mpr hon⟩), List.eraseP_append_right _ hnot,
      List.eraseP_cons_of_pos ((hcancels on).mpr hon), List.find?_append, List.find?_eq_none.mpr hnot,
      List.find?_cons_of_pos ((hcancels on).mpr hon)]
    rfl
  have hended : endGrant p ((startRelease p s).setVol p fun v => { v with orders := before ++ behind })
      = s.grantEnded p (before ++ behind) := by
    have herase : (s.heat.order.erase p).erase p = s.heat.order.erase p :=
      List.erase_of_not_mem fun h => ((hs.order_nodup.mem_erase_iff).mp h).1 rfl
    unfold endGrant startRelease
    dsimp only
    rw [show ∀ (f : PosState → PosState) (g : HeatState → HeatState) (x : State),
      (State.setHeat g x).setVol p f = (x.setVol p f).setHeat g from fun _ _ _ => rfl, setVol_setVol]
    rw [show ∀ (f : PosState → PosState) (g : HeatState → HeatState) (x : State),
      (State.setHeat g x).setVol p f = (x.setVol p f).setHeat g from fun _ _ _ => rfl, setVol_setVol]
    refine (show _ = ({ s with
      pos := s.pos.set p.val ((s.vol p).ended .none (before ++ behind))
      heat := { s.heat with queue := s.heat.queue.erase p, order := (s.heat.order.erase p).erase p } } : State)
      from rfl).trans ?_
    rw [herase]
    rfl
  have hcounted : (((startRelease p s).setVol p fun v => { v with orders := before ++ behind }).vol p).grant.counted
      = true := by
    rw [State.vol_setVol, if_pos rfl, vol_startRelease]
    rfl
  rw [withdraw_of_granted hg, askUrgentFor_last _ _ _ _ _ (by rw [hstep]), hstep,
    makeStep_report _ _ _ _ on rfl (by rw [hon.2]; rfl)]
  unfold reportCancelled heatOnCancelled
  rw [hon.2]
  dsimp only
  rw [if_pos hcounted, hended]
  rfl

theorem exists_first_heatOn {q : List Order} (h : ∃ o ∈ q, o.tag = none ∧ o.body = .heatOn) :
    ∃ before on behind, q = before ++ on :: behind ∧ (on.tag = none ∧ on.body = .heatOn)
      ∧ ∀ o ∈ before, ¬ (o.tag = none ∧ o.body = .heatOn) := by
  obtain ⟨o, ho, hon⟩ := h
  obtain ⟨on, before, behind, hbefore, hfirst, hq, -⟩ := List.exists_of_eraseP
    (p := fun o : Order => decide (o.tag = none ∧ o.body = .heatOn)) ho (decide_eq_true hon)
  exact ⟨before, on, behind, hq, of_decide_eq_true hfirst, fun x hx hxon => hbefore x hx (decide_eq_true hxon)⟩

theorem grantStep_activatePending (s : State) : GrantStep s (activatePending s) := by
  obtain ⟨_, _, _, he⟩ := activatePending_eq s
  rw [he]
  rfl

theorem vol_activatePending (q : PosIx) (s : State) : (activatePending s).vol q = s.vol q := by
  obtain ⟨_, _, _, he⟩ := activatePending_eq s
  rw [he]
  rfl

theorem heat_activatePending (s : State) : (activatePending s).heat = s.heat := by
  obtain ⟨_, _, _, he⟩ := activatePending_eq s
  rw [he]

theorem heaterDemand_grantStep (h : GrantStep s t) (q : PosIx) : t.heaterDemand q = s.heaterDemand q := by
  rw [State.heaterDemand, h.record]
  rfl

theorem sessionIs_grantStep (h : GrantStep s t) (q : PosIx) (st : SessionState) :
    t.sessionIs q st = s.sessionIs q st := by
  rw [State.sessionIs, h.session]
  rfl

/-- Whether a position whose grant ended asks for heat again (R128). -/
theorem asksAgain_iff (orders : List Order) (s : State) :
    (((activatePending (s.grantEnded p orders)).vol p).heatRequest
      && (activatePending (s.grantEnded p orders)).mayQueue p) = true
    ↔ (s.vol p).heatRequest = true ∧ s.sessionIs p .running = true ∧ 0 < s.heaterDemand p := by
  have hstep : GrantStep s (activatePending (s.grantEnded p orders)) :=
    GrantStep.trans (t := s.grantEnded p orders) rfl (grantStep_activatePending _)
  rw [Bool.and_eq_true, State.mayQueue_iff, vol_activatePending, vol_grantEnded, heaterDemand_grantStep hstep,
    sessionIs_grantStep hstep]
  simp [PosState.ended]

theorem owed_evaluate (q : PosIx) (s : State) : ((evaluate s).vol q).owed = (s.vol q).owed := by
  refine evaluate_induction (motive := fun s t => (t.vol q).owed = (s.vol q).owed) (fun _ => rfl)
    (fun s p rest t hq _ h => h.trans ?_) s
  by_cases hne : q = p
  · subst hne
    obtain ⟨v, order, queue, heq, -, -, hv⟩ := grantHead_spec hq
    have hvol : (grantHead q s).vol q = v := by
      rw [heq]
      exact (State.vol_setVol q q (fun _ => v) s).trans (if_pos rfl)
    rw [hvol]
    rcases hv with rfl | rfl <;> rfl
  · rw [vol_grantHead_of_ne hq hne]

theorem owed_afterAbsorbed (orders : List Order) (s : State) :
    ((s.afterAbsorbed p orders).vol p).owed = (s.vol p).owed := by
  have hended : ((activatePending (s.grantEnded p orders)).vol p).owed = (s.vol p).owed := by
    rw [vol_activatePending, vol_grantEnded]
    rfl
  unfold State.afterAbsorbed
  dsimp only
  rw [owed_evaluate]
  split
  · unfold joinQueue
    rw [State.vol_setHeat_same, State.vol_setVol, if_pos rfl]
    exact hended
  · exact hended

theorem serveOwed_of_not_owed (h : (s.vol p).owed = false) : serveOwed p s = s := by
  rw [serveOwed, h]
  rfl

/-- A position that asks for heat again joins the queue with the grant it gave up (R128). -/
theorem afterAbsorbed_again (orders : List Order)
    (h : (s.vol p).heatRequest = true ∧ s.sessionIs p .running = true ∧ 0 < s.heaterDemand p) :
    s.afterAbsorbed p orders = evaluate (let w := activatePending (s.grantEnded p orders)
      { w with
        pos := w.pos.set p.val { w.vol p with grant := .queued }
        heat := { w.heat with queue := w.heat.queue ++ [p] } }) := by
  unfold State.afterAbsorbed
  dsimp only
  rw [if_pos ((asksAgain_iff orders s).mpr h)]
  have hvol := (vol_activatePending p (s.grantEnded p orders)).trans (vol_grantEnded p orders s)
  generalize activatePending (s.grantEnded p orders) = w at *
  have hchanged : (w.vol p).changed = true := by rw [hvol]; rfl
  have hv : { w.vol p with grant := Grant.queued, changed := true } = { w.vol p with grant := Grant.queued } := by
    rw [← hchanged]
  exact congrArg evaluate (congrArg (fun v => ({ w with
    pos := w.pos.set p.val v
    heat := { w.heat with queue := w.heat.queue ++ [p] } } : State)) hv)

theorem afterAbsorbed_done (orders : List Order)
    (h : ¬ ((s.vol p).heatRequest = true ∧ s.sessionIs p .running = true ∧ 0 < s.heaterDemand p)) :
    s.afterAbsorbed p orders = evaluate (activatePending (s.grantEnded p orders)) := by
  unfold State.afterAbsorbed
  exact congrArg evaluate (if_neg (mt (asksAgain_iff orders s).mp h))

theorem grant_serveOwed (p q : PosIx) (s : State) : ((serveOwed p s).vol q).grant = (s.vol q).grant
    ∧ ((serveOwed p s).vol q).slice = (s.vol q).slice ∧ (serveOwed p s).heat = s.heat := by
  unfold serveOwed
  split
  · unfold askDisplay
    dsimp only
    rw [State.vol_setVol]
    split
    · next e => subst e; exact ⟨rfl, rfl, rfl⟩
    · exact ⟨rfl, rfl, rfl⟩
  · exact ⟨rfl, rfl, rfl⟩

/-- A withdrawal that an undelivered HEAT_ON absorbs ends the grant, where heat is no longer asked for (R128). -/
theorem withdraw_absorbed_none (hs : HeatCore s) (hg : (s.vol p).grant = .granted)
    (hon : ∃ o ∈ (s.vol p).orders, o.tag = none ∧ o.body = .heatOn)
    (h : ¬ ((s.vol p).heatRequest = true ∧ s.sessionIs p .running = true ∧ 0 < s.heaterDemand p)) :
    ((withdraw p s).vol p).grant = .none ∧ ((withdraw p s).vol p).slice = none
      ∧ p ∉ (withdraw p s).heat.queue := by
  obtain ⟨before, on, behind, hq, hfirst, hbefore⟩ := exists_first_heatOn hon
  rw [withdraw_absorbed hs hg hq hfirst hbefore]
  obtain ⟨hgrant, hslice, hheat⟩ := grant_serveOwed p p (s.afterAbsorbed p (before ++ behind))
  rw [hgrant, hslice, hheat, afterAbsorbed_done _ h]
  have hout : p ∉ (activatePending (s.grantEnded p (before ++ behind))).heat.queue := by
    rw [heat_activatePending]
    exact fun hmem => ((hs.queue_nodup.mem_erase_iff).mp hmem).1 rfl
  obtain ⟨hvol, hnot⟩ := evaluate_idle hout
  rw [hvol, vol_activatePending, vol_grantEnded]
  exact ⟨rfl, rfl, hnot⟩

/-! ## The slice -/

theorem exec_sliceExpiry (hl : s.live = true) : exec (.sliceExpiry p) s
    = .next (if (s.vol p).grant = .granted ∧ (s.vol p).slice = some 0 then expireSlice p s.fresh else s.fresh) := by
  change execSliceExpiry p s = _
  rw [execSliceExpiry, taking_of_live _ hl]
  refine congrArg Host.Outcome.next (if_congr ?_ rfl rfl)
  rw [Bool.and_eq_true, beq_iff_eq, ranOut, beq_iff_eq]
  rfl

/-- Settles O45. -/
theorem sliceExpiryYields : Obligations.SliceExpiryYields := by
  unfold Obligations.SliceExpiryYields
  refine ⟨fun s p hl => ⟨fun hg hslice => ?_, fun hno => ?_⟩, fun s p => ?_⟩
  · intro v
    have hexec := (exec_sliceExpiry hl (p := p)).trans (congrArg Host.Outcome.next (if_pos ⟨hg, hslice⟩))
    have hyields : s.heat.queue ≠ [] → exec (.sliceExpiry p) s = .next (withdraw p s.fresh) := fun hne =>
      hexec.trans (congrArg Host.Outcome.next (if_neg (by simpa [State.fresh] using hne)))
    refine ⟨fun hempty => ?_, fun hne hon => ⟨fun hroom => ?_, fun hs hq => ?_⟩, fun hne hs hreq o ho htag hbody => ?_⟩
    · refine hexec.trans (congrArg Host.Outcome.next ((if_pos ?_).trans rfl))
      rw [show s.fresh.heat.queue = [] from hempty]
      rfl
    · exact (hyields hne).trans (congrArg Host.Outcome.next (withdraw_of_room (s := s.fresh) hg hon hroom))
    · obtain ⟨hr, hstands, -⟩ := withdraw_releasing (s := s.fresh) ((heatLaw_iff (s := s.fresh)).mp hs).1 hq hg hon
      exact ⟨_, hyields hne, hr.grant, hr.slice, hstands, (told_withdraw p s.fresh).room⟩
    · obtain ⟨hgrant, hslice', -⟩ := withdraw_absorbed_none (s := s.fresh)
        ((heatLaw_iff (s := s.fresh)).mp hs).1 hg ⟨o, ho, htag, hbody⟩ fun h => by
        rw [show (s.fresh.vol p).heatRequest = false from hreq] at h
        exact nomatch h.1
      exact ⟨_, hyields hne, hgrant, hslice', (told_withdraw p s.fresh).room⟩
  · refine (exec_sliceExpiry hl).trans (congrArg Host.Outcome.next (if_neg ?_))
    rintro ⟨h1, h2⟩
    exact hno.elim (fun h => h h1) fun h => h h2
  · intro v isOn ended
    refine ⟨withdraw_of_ended, withdraw_of_queued, fun hg hon => ⟨fun hroom => ?_, fun hs hq => ?_⟩, fun hg hs howed => ?_⟩
    · exact withdraw_of_room hg (fun o ho htag hbody => hon o ho ⟨htag, hbody⟩) hroom
    · obtain ⟨hr, hstands, -⟩ := withdraw_releasing (heatLaw_iff.mp hs).1 hq hg
        fun o ho htag hbody => hon o ho ⟨htag, hbody⟩
      exact ⟨hr.grant, hstands, (told_withdraw p s).room⟩
    · intro before on behind hq hon hbefore w again
      have heq := (withdraw_absorbed (heatLaw_iff.mp hs).1 hg hq hon hbefore).trans (serveOwed_of_not_owed
        ((owed_afterAbsorbed _ _).trans howed))
      exact ⟨fun h => heq.trans (afterAbsorbed_again _ h), fun h => heq.trans (afterAbsorbed_done _ h)⟩

end Sys2Proof.Machine
end

section
/-! A sag of the supply (R127, R134, R135). -/

namespace Sys2Proof.Machine

variable {s t u : State} {p q : PosIx}

/-! ## A withdrawal under SAG -/

/-- Under SAG a withdrawn grant is RELEASING with its HEAT_OFF, or waits at the tail of the queue, or is NONE (R128,
R129, R134). -/
theorem withdraw_in_sag (hs : HeatCore s) (hq : QueueLaw (s.vol p).orders) (hn : s.heat.sag ≠ .normal)
    (hg : (s.vol p).grant = .granted) :
    s.heat.queue <+: (withdraw p s).heat.queue ∧ ((withdraw p s).vol p).slice = none
    ∧ ((∀ o ∈ (s.vol p).orders, o.tag = none → o.body ≠ .heatOn) →
      ((withdraw p s).vol p).grant = .releasing ∧ ((withdraw p s).vol p).heatOffStands = true) := by
  by_cases hon : ∀ o ∈ (s.vol p).orders, o.tag = none → o.body ≠ .heatOn
  · obtain ⟨hr, hstands, hqueue⟩ := withdraw_releasing hs hq hg hon
    exact ⟨by rw [hqueue hn], hr.slice, fun _ => ⟨hr.grant, hstands⟩⟩
  · have hex : ∃ o ∈ (s.vol p).orders, o.tag = none ∧ o.body = .heatOn := by
      push Not at hon
      exact hon
    obtain ⟨before, on, behind, horders, hfirst, hbefore⟩ := exists_first_heatOn hex
    have hout : p ∉ s.heat.queue := hs.not_mem_queue (by rw [hg]; exact fun e => nomatch e)
    obtain ⟨-, hslice, hheat⟩ := grant_serveOwed p p (s.afterAbsorbed p (before ++ behind))
    rw [withdraw_absorbed hs hg horders hfirst hbefore, hslice, hheat]
    have hvol := (vol_activatePending p (s.grantEnded p (before ++ behind))).trans
      (vol_grantEnded p (before ++ behind) s)
    have hw := (heat_activatePending (s.grantEnded p (before ++ behind)))
    refine ⟨?_, ?_, fun h => absurd h hon⟩
    all_goals
      unfold State.afterAbsorbed
      dsimp only
      generalize activatePending (s.grantEnded p (before ++ behind)) = w at *
    · have hqueue : w.heat.queue = s.heat.queue := by
        rw [hw]
        exact List.erase_of_not_mem hout
      split
      · rw [evaluate_of_sag (by change w.heat.sag ≠ _; rw [hw]; exact hn)]
        change s.heat.queue <+: w.heat.queue ++ [p]
        rw [hqueue]
        exact List.prefix_append _ _
      · rw [evaluate_of_sag (by rw [hw]; exact hn), hqueue]
    · split
      · rw [evaluate_of_sag (by change w.heat.sag ≠ _; rw [hw]; exact hn), joinQueue, State.vol_setHeat_same,
          State.vol_setVol, if_pos rfl, hvol]
        rfl
      · rw [evaluate_of_sag (by rw [hw]; exact hn), hvol]
        rfl

/-- The withdrawals of a sag, in any order (R134; log entry 10). -/
theorem foldl_withdraw_in_sag (ps : List PosIx) (hnd : ps.Nodup) : ∀ s : State, HeatCore s → s.heat.sag ≠ .normal →
    (∀ p, QueueLaw (s.vol p).orders) → (∀ p ∈ ps, (s.vol p).grant = .granted) →
    let t := ps.foldl (fun s p => withdraw p s) s
    RoomStep s t ∧ s.heat.queue <+: t.heat.queue ∧ (∀ p, p ∉ ps → t.vol p = s.vol p)
    ∧ ∀ p ∈ ps, (t.vol p).slice = none ∧ ((∀ o ∈ (s.vol p).orders, o.tag = none → o.body ≠ .heatOn) →
      (t.vol p).grant = .releasing ∧ (t.vol p).heatOffStands = true) := by
  induction ps with
  | nil => exact fun s _ _ _ _ => ⟨.refl s, List.prefix_refl _, fun _ _ => rfl, fun _ h => absurd h List.not_mem_nil⟩
  | cons p rest ih =>
    intro s hs hn hq hg
    obtain ⟨hp, hnd⟩ := List.nodup_cons.mp hnd
    have hgp := hg p List.mem_cons_self
    have moves := withdraw_moves p (Relation.ReflTransGen.refl (a := s))
    have told := told_withdraw p s
    have others : ∀ q, q ≠ p → (withdraw p s).vol q = s.vol q := told.kept.shut hn
    obtain ⟨hprefix, hslice, hreleasing⟩ := withdraw_in_sag hs (hq p) hn hgp
    obtain ⟨hroom, hqueue, hsame, hdone⟩ := ih hnd (withdraw p s) (hs.moves moves) (told.kept.sag ▸ hn)
      (fun q => queueLaw_moves moves (hq q)) fun q hmem => by
        rw [others q fun e => hp (e ▸ hmem)]
        exact hg q (List.mem_cons_of_mem _ hmem)
    refine ⟨told.room.trans hroom, hprefix.trans hqueue, fun q hnot => ?_, fun q hmem => ?_⟩
    · obtain ⟨hne, hnot⟩ := not_or.mp (mt List.mem_cons.mpr hnot)
      rw [List.foldl_cons, hsame q hnot, others q hne]
    · rw [List.foldl_cons]
      by_cases he : q = p
      · subst he
        rw [hsame q hp]
        exact ⟨hslice, hreleasing⟩
      · have := hdone q ((List.mem_cons.mp hmem).resolve_left he)
        rwa [others q he] at this

/-! ## Fault records -/

theorem getLast_appendFault (code : Nat) (position : Option PosIx) (severity : Severity) (number : Option Nat)
    (detail : Option MissKind) (s : State) :
    (appendFault code position severity number detail s).ret.faults.getLast? = some
      { number := s.ret.nextFault, code := code, position := position, severity := severity, minute := s.minuteNow
        settlement := number, detail := detail } := List.getLast?_concat ..

/-- One fault record on top of an operation of the room. -/
theorem RoomStep.fault (h : RoomStep s t) (code : Nat) (position : Option PosIx) (severity : Severity)
    (number : Option Nat) (detail : Option MissKind) :
    RoomStepAndFault s (appendFault code position severity number detail t) := by
  unfold RoomStep at h
  unfold RoomStepAndFault RoomStep
  rw [h]
  rfl

/-- The newest fault record behind an operation of the room (R155, R156). -/
theorem RoomStep.lastFault (h : RoomStep s t) (code : Nat) (position : Option PosIx) (severity : Severity)
    (number : Option Nat) (detail : Option MissKind) :
    (appendFault code position severity number detail t).ret.faults.getLast? = some
      { number := s.ret.nextFault, code := code, position := position, severity := severity, minute := s.minuteNow
        settlement := number, detail := detail } := by
  have hnumber : t.ret.nextFault = s.ret.nextFault := by
    unfold RoomStep at h
    rw [h]
  have hminute : t.minuteNow = s.minuteNow := by
    unfold RoomStep at h
    rw [h]
    rfl
  rw [← hnumber, ← hminute]
  exact getLast_appendFault ..

/-! ## The order of the withdrawals -/

theorem insertByRank_perm (rank : PosIx → Nat) (p : PosIx) (ps : List PosIx) :
    (insertByRank rank p ps).Perm (p :: ps) := by
  induction ps with
  | nil => exact List.Perm.refl _
  | cons q rest ih =>
    unfold insertByRank
    split
    · exact List.Perm.refl _
    · exact (ih.cons q).trans (List.Perm.swap p q rest)

theorem sortByRank_perm (rank : PosIx → Nat) (ps : List PosIx) : (sortByRank rank ps).Perm ps := by
  induction ps with
  | nil => exact List.Perm.refl _
  | cons p rest ih => exact (insertByRank_perm rank p _).trans (ih.cons p)

/-- What a sag makes of the room (R134). -/
theorem assertSag_spec (hs : HeatCore s) (hq : ∀ p, QueueLaw (s.vol p).orders) :
    let t := assertSag s
    t.heat.sag = .asserted ∧ t.heat.order = [] ∧ RoomStepAndFault s.sagging t ∧ s.heat.queue <+: t.heat.queue
    ∧ (∀ p, (s.vol p).grant ≠ .granted → t.vol p = s.vol p)
    ∧ (∀ p, (s.vol p).grant = .granted → (t.vol p).grant ≠ .granted ∧ (t.vol p).slice = none
        ∧ ((∀ o ∈ (s.vol p).orders, o.tag = none → o.body ≠ .heatOn) →
            (t.vol p).grant = .releasing ∧ (t.vol p).heatOffStands = true))
    ∧ t.ret.faults.getLast? = some
        { number := s.ret.nextFault, code := 23, position := none, severity := .notice
          minute := s.minuteNow, settlement := none, detail := none } := by
  have hlaw := heatLaw_assertSag hs
  have hsag : (assertSag s).heat.sag = .asserted := (assertSag_moves s).noGrantInSag.sag
  have hno := (heatLaw_iff.mp hlaw).2 (by rw [hsag]; exact fun e => nomatch e)
  have sagging : HeatCore s.sagging := hs.of_same ⟨rfl, rfl, fun _ => rfl, fun _ => rfl, fun _ => rfl⟩ hs.within
  let held := sortByRank (Config.sagRank s.draws) (allPositions.filter fun p => (s.vol p).grant == .granted)
  have hheld : ∀ p, p ∈ held ↔ (s.vol p).grant = .granted := fun p => by
    rw [mem_sortByRank, List.mem_filter, beq_iff_eq]
    exact and_iff_right (mem_allPositions p)
  obtain ⟨hroom, hqueue, hsame, hdone⟩ := foldl_withdraw_in_sag held
    ((sortByRank_perm _ _).nodup_iff.mpr (nodup_allPositions.filter _)) s.sagging sagging
    (fun e => nomatch e) hq fun p hp => (hheld p).mp hp
  refine ⟨hsag, List.eq_nil_iff_forall_not_mem.mpr fun p hp => hno p ((hlaw.2.2.2.1 p).mp hp),
    hroom.fault 23 none .notice none none, hqueue, fun p hp => hsame p (mt (hheld p).mp hp),
    fun p hp => ⟨hno p, hdone p ((hheld p).mpr hp)⟩, hroom.lastFault 23 none .notice none none⟩

/-- Settles O46. -/
theorem sagWithdrawsEveryGrant : Obligations.SagWithdrawsEveryGrant := by
  unfold Obligations.SagWithdrawsEveryGrant
  refine ⟨fun s hl hp hs hq => ?_, fun s hl => ⟨fun hp => ?_, fun hp => ?_, fun hp => ?_, fun hsag => ?_, fun hsag => ?_⟩⟩
  · have hexec : exec .sagAssert s = .next (assertSag (setSagPin true s.fresh)) := by
      change execSagAssert s = _
      rw [execSagAssert, if_pos hl, taking_of_live _ hl]
      exact congrArg Host.Outcome.next (if_neg (by rw [show s.fresh.pins.sag = false from hp]; exact fun e => nomatch e))
    have hcore : HeatCore (setSagPin true s.fresh) := ((heatLaw_iff (s := setSagPin true s.fresh)).mp hs).1
    obtain ⟨hsag, horder, hroom, hqueue, hsame, hdone, hfault⟩ := assertSag_spec hcore hq
    refine ⟨_, hexec, ?_, hsag, horder, ?_, hqueue, hsame, hdone, hfault⟩
    all_goals generalize assertSag (setSagPin true s.fresh) = t at *
    · exact (congrArg State.pins hroom :)
    · exact congrArg (fun x : State => ({ x with
        pins := s.pins, draws := s.draws, heat := { x.heat with sag := s.heat.sag } } : State)) hroom
  · change execSagAssert s = _
    rw [execSagAssert, if_pos hl, taking_of_live _ hl]
    exact congrArg Host.Outcome.next (if_pos hp)
  · change execSagRelease s = _
    rw [execSagRelease, if_pos hl, taking_of_live _ hl]
    exact congrArg Host.Outcome.next (if_neg (by rw [show s.fresh.pins.sag = false from hp]; exact fun e => nomatch e))
  · change execSagRelease s = _
    rw [execSagRelease, if_pos hl, taking_of_live _ hl]
    exact congrArg Host.Outcome.next (if_pos hp)
  · change execSettleTimeEnd s = _
    rw [execSettleTimeEnd, taking_of_live _ hl]
    exact congrArg Host.Outcome.next (if_pos hsag)
  · change execSettleTimeEnd s = _
    rw [execSettleTimeEnd, taking_of_live _ hl]
    exact congrArg Host.Outcome.next (if_neg hsag)

end Sys2Proof.Machine
end

section
/-! The operations of the room neither read nor touch the gateway link. -/

namespace Sys2Proof.Machine

variable {s t : State} {p : PosIx} {l : LinkState}

/-- The state with another gateway link. -/
def State.relink (l : LinkState) (s : State) : State := { s with link := l }

theorem relink_relink (l m : LinkState) (s : State) : (s.relink l).relink m = s.relink m := rfl

@[simp] theorem vol_relink (l : LinkState) (s : State) : (s.relink l).vol = s.vol := rfl

@[simp] theorem session_relink (l : LinkState) (s : State) : (s.relink l).session = s.session := rfl

@[simp] theorem ret_relink (l : LinkState) (s : State) : (s.relink l).ret = s.ret := rfl

@[simp] theorem heat_relink (l : LinkState) (s : State) : (s.relink l).heat = s.heat := rfl

/-- A choice by what is not the link. -/
theorem ite_relink {c : Prop} [Decidable c] {a b a' b' : State} (ha : a' = a.relink l) (hb : b' = b.relink l) :
    (if c then a' else b') = (if c then a else b).relink l := by
  subst ha hb
  split <;> rfl

/-! ## Order queues and granting -/

theorem serveOwed_relink (p : PosIx) (s : State) : serveOwed p (s.relink l) = (serveOwed p s).relink l :=
  ite_relink rfl rfl

theorem letGo_relink (isOwn : OrderBody → Bool) (p : PosIx) (s : State) :
    letGo isOwn p (s.relink l) = (letGo isOwn p s).relink l :=
  ite_relink (serveOwed_relink p (s.setVol p fun v => { v with
    orders := ((s.vol p).orders.filter fun o => !(o.undelivered && isOwn o.body && o.owned)).map fun o =>
      if isOwn o.body then { o with owned := false } else o })) rfl

theorem grantHead_relink (p : PosIx) (s : State) : grantHead p (s.relink l) = (grantHead p s).relink l :=
  ite_relink rfl rfl

theorem evaluateFor_relink (k : Nat) : ∀ s : State, evaluateFor k (s.relink l) = (evaluateFor k s).relink l := by
  induction k with
  | zero => exact fun _ => rfl
  | succ k ih =>
    intro s
    cases hq : s.heat.queue with
    | nil =>
      rw [evaluateFor, evaluateFor, heat_relink, hq]
    | cons p rest =>
      rw [evaluateFor_succ_of_head hq, evaluateFor_succ_of_head (s := s.relink l) hq, grantHead_relink, ih]
      exact ite_relink rfl rfl

theorem evaluate_relink (s : State) : evaluate (s.relink l) = (evaluate s).relink l := evaluateFor_relink _ s

theorem activatePending_relink (s : State) : activatePending (s.relink l) = (activatePending s).relink l := by
  unfold activatePending
  rw [ret_relink]
  cases s.ret.pendingBudget with
  | none => rfl
  | some n => exact ite_relink rfl rfl

theorem committedFell_relink (s : State) : committedFell (s.relink l) = (committedFell s).relink l := by
  rw [committedFell, activatePending_relink, evaluate_relink]
  rfl

theorem heatOnCancelled_relink (p : PosIx) (s : State) :
    heatOnCancelled p (s.relink l) = (heatOnCancelled p s).relink l := by
  unfold heatOnCancelled
  refine ite_relink ?_ rfl
  rw [show endGrant p (s.relink l) = (endGrant p s).relink l from rfl, activatePending_relink]
  generalize activatePending (endGrant p s) = w
  dsimp only
  rw [← evaluate_relink]
  exact congrArg evaluate (ite_relink rfl rfl)

/-! ## Sessions -/

theorem journalled_relink (e : JournalEntry) (s : State) : journalled e (s.relink l) = (journalled e s).relink l := by
  rw [journalled_eq, journalled_eq]
  rfl

theorem lowerHold_relink (id : CardId) (amount : Nat) (part : SessionPart) (s : State) :
    lowerHold id amount part (s.relink l) = (lowerHold id amount part s).relink l := journalled_relink _ s

theorem sendDecline_relink (x : TermIx) (tag : Byte) (reason : DeclineReason) (id : CardId) (s : State) :
    sendDecline x tag reason id (s.relink l) = (sendDecline x tag reason id s).relink l := ite_relink rfl rfl

theorem cancelSession_relink (p : PosIx) (reason : DeclineReason) (s : State) :
    cancelSession p reason (s.relink l) = (cancelSession p reason s).relink l := by
  unfold cancelSession
  rw [session_relink]
  cases s.session p with
  | none => rfl
  | some ses =>
    dsimp only
    rw [letGo_relink, lowerHold_relink, committedFell_relink, sendDecline_relink]
    rfl

theorem cancelIfStarting_relink (p : PosIx) (reason : DeclineReason) (s : State) :
    cancelIfStarting p reason (s.relink l) = (cancelIfStarting p reason s).relink l :=
  ite_relink (cancelSession_relink p reason s) rfl

section withdrawal

variable {wd : PosIx → State → State} (hw : ∀ s, wd p (s.relink l) = (wd p s).relink l)
include hw

theorem goEndingWith_relink (s : State) : goEndingWith wd p (s.relink l) = (goEndingWith wd p s).relink l := by
  unfold goEndingWith
  dsimp only
  rw [show ∀ u : State, (State.markChanged p u).relink l = (u.relink l).markChanged p from fun _ => rfl, ← hw]
  exact congrArg (fun u => (wd p u).markChanged p) (ite_relink rfl rfl)

theorem extensionFailWith_relink (reason : DeclineReason) (s : State) :
    extensionFailWith wd p reason (s.relink l) = (extensionFailWith wd p reason s).relink l := by
  unfold extensionFailWith
  rw [session_relink]
  cases s.session p with
  | none => rfl
  | some ses =>
    dsimp only
    cases ses.ext with
    | none => rfl
    | some e =>
      dsimp only
      rw [letGo_relink, lowerHold_relink, sendDecline_relink]
      exact ite_relink (goEndingWith_relink hw _) rfl

theorem reportCancelled_relink (o : Order) (s : State) :
    reportCancelled wd p o (s.relink l) = (reportCancelled wd p o s).relink l := by
  unfold reportCancelled
  cases o.body with
  | start => exact ite_relink (cancelIfStarting_relink p _ s) rfl
  | extend => exact ite_relink (extensionFailWith_relink hw _ s) rfl
  | heatOn => exact heatOnCancelled_relink p s
  | finish => rfl
  | heatOff => rfl
  | halt => rfl
  | disable => rfl
  | enable => rfl

theorem afterRemoval_relink (removed : Option Order) (s : State) :
    afterRemoval wd p removed (s.relink l) = (afterRemoval wd p removed s).relink l := by
  cases removed with
  | none => rfl
  | some o =>
    refine ite_relink rfl ?_
    rw [reportCancelled_relink hw, serveOwed_relink]

theorem makeStep_relink (n : UrgentStep) (s : State) :
    makeStep wd p n (s.relink l) = (makeStep wd p n s).relink l :=
  afterRemoval_relink hw n.removed (s.setVol p fun v => { v with orders := n.orders })

theorem askUrgentFor_relink (u : Urgent) (k : Nat) : ∀ s : State,
    askUrgentFor wd u p k (s.relink l) = (askUrgentFor wd u p k s).relink l := by
  induction k with
  | zero => exact fun s => makeStep_relink hw _ s
  | succ k ih =>
    intro s
    unfold askUrgentFor
    dsimp only
    rw [vol_relink, makeStep_relink hw, ih]
    exact ite_relink rfl rfl

end withdrawal

theorem withdraw_relink (p : PosIx) (s : State) : withdraw p (s.relink l) = (withdraw p s).relink l := by
  cases hg : (s.vol p).grant with
  | none => rw [withdraw_of_ended (.inl hg), withdraw_of_ended (s := s.relink l) (.inl hg)]
  | releasing => rw [withdraw_of_ended (.inr hg), withdraw_of_ended (s := s.relink l) (.inr hg)]
  | queued =>
    rw [withdraw_of_queued hg, withdraw_of_queued (s := s.relink l) hg, ← evaluate_relink]
    rfl
  | granted =>
    rw [withdraw_of_granted hg, withdraw_of_granted (s := s.relink l) hg]
    exact askUrgentFor_relink (wd := fun _ s => s) (fun _ => rfl) _ _ (startRelease p s)

end Sys2Proof.Machine
end

section
/-! SET BUDGET and the withdrawal of dryers (R120, R123, R124). -/

namespace Sys2Proof.Machine

variable {s t u : State} {p q : PosIx}

/-! ## Committed load -/

theorem loadOf_congr (hg : (t.vol q).grant = (s.vol q).grant) (hs : (t.session q).isSome = (s.session q).isSome)
    (hc : (t.record q).config = (s.record q).config) : t.loadOf q = s.loadOf q := by
  simp only [State.loadOf, State.motorLoad, State.heaterDemand, hg, hs, hc]

theorem committed_congr (h : ∀ q, t.loadOf q = s.loadOf q) : t.committed = s.committed := by
  unfold State.committed
  rw [funext h]

/-- A change at one position that adds no more than a given load. -/
theorem committed_le {d : Nat} (p : PosIx) (h : ∀ q, q ≠ p → t.loadOf q = s.loadOf q)
    (hp : t.loadOf p ≤ s.loadOf p + d) : t.committed ≤ s.committed + d := by
  have := committed_update p h
  omega

/-- A grant takes a value, with another queue and order. -/
theorem committed_regrant {d : Nat} (p : PosIx) (f : PosState → PosState) (g : HeatState → HeatState) (s : State)
    (hf : (if (f (s.vol p)).grant.counted then s.heaterDemand p else 0)
      ≤ (if (s.vol p).grant.counted then s.heaterDemand p else 0) + d) :
    ((s.setVol p f).setHeat g).committed ≤ s.committed + d := by
  have hvol : ∀ q, ((s.setVol p f).setHeat g).vol q = if p = q then f (s.vol p) else s.vol q := fun q => by
    rw [State.vol_setHeat_same, State.vol_setVol]
  refine committed_le p (fun q hne => loadOf_congr (by rw [hvol, if_neg (Ne.symm hne)]) rfl rfl) ?_
  unfold State.loadOf
  rw [hvol, if_pos rfl]
  exact (Nat.add_le_add_left hf _).trans_eq (Nat.add_assoc _ _ _).symm

theorem committed_journalled {d : Nat} (p : PosIx) (e : JournalEntry) (s : State)
    (hother : ∀ q, q ≠ p → (e.session.sessions s.ret.sessions)[q.val] = s.ret.sessions[q.val])
    (hp : (if ((e.session.sessions s.ret.sessions)[p.val]).isSome then s.motorLoad p else 0)
      ≤ (if (s.session p).isSome then s.motorLoad p else 0) + d) :
    (journalled e s).committed ≤ s.committed + d := by
  have hvol : ∀ q, (journalled e s).vol q = s.vol q := fun q => by rw [journalled_eq]; rfl
  have hrec : ∀ q, (journalled e s).record q = s.record q := fun q => by
    rw [State.record, journalled_ret, applyEntry_eq]
    rfl
  refine committed_le p (fun q hne => loadOf_congr (by rw [hvol]) ?_ (by rw [hrec])) ?_
  · rw [session_journalled, hother q hne]
    rfl
  · unfold State.loadOf State.motorLoad State.heaterDemand
    rw [hvol, hrec, session_journalled]
    have := hp
    unfold State.motorLoad at this
    omega

/-! ## While a budget is pending -/

/-- With a pending budget no grant is given, so the grant order only loses positions; with none the active budget is
met (R120, R127). -/
def BudgetHolds (k : Nat) (s : State) : Prop :=
  (s.ret.pendingBudget = none ∧ s.committed ≤ s.ret.budget) ∨ (s.ret.pendingBudget ≠ none ∧ s.heat.order.length ≤ k)

theorem BudgetHolds.of_le {k : Nat} (h : BudgetHolds k s) (hp : t.ret.pendingBudget = s.ret.pendingBudget)
    (hb : t.ret.budget = s.ret.budget) (hc : t.committed ≤ s.committed) (ho : t.heat.order.length ≤ s.heat.order.length) :
    BudgetHolds k t := by
  unfold BudgetHolds at *
  rw [hp, hb]
  exact h.imp (And.imp_right hc.trans) (And.imp_right ho.trans)

/-- A change that leaves the loads and the unit's own state. -/
theorem BudgetHolds.frame {k : Nat} (h : BudgetHolds k s) (hp : t.ret.pendingBudget = s.ret.pendingBudget)
    (hb : t.ret.budget = s.ret.budget) (hh : t.heat = s.heat) (hload : ∀ q, t.loadOf q = s.loadOf q) :
    BudgetHolds k t := h.of_le hp hb (committed_congr hload).le (by rw [hh])

theorem budgetHolds_move {k : Nat} (m : Move s t) (h : BudgetHolds k s) : BudgetHolds k t := by
  have journal : ∀ (p : PosIx) (e : JournalEntry) (ses : Session), s.session p = some ses →
      (∀ q, q ≠ p → (e.session.sessions s.ret.sessions)[q.val] = s.ret.sessions[q.val]) →
      BudgetHolds k (journalled e s) := fun p e ses hs hother => by
    refine h.of_le (by rw [journalled_ret, applyEntry_eq]) (by rw [journalled_ret, applyEntry_eq])
      ((committed_journalled (d := 0) p e s hother ?_).trans_eq (Nat.add_zero _)) (by rw [journalled_eq])
    rw [hs, Option.isSome_some, if_pos rfl]
    split <;> omega
  cases m with
  | vol p f _ hg _ => exact h.frame rfl rfl rfl fun q => loadOf_congr (vol_grant_setVol p q f hg) rfl rfl
  | term => exact h.frame rfl rfl rfl fun q => loadOf_congr rfl rfl rfl
  | bus => exact h.frame rfl rfl rfl fun q => loadOf_congr rfl rfl rfl
  | record p f _ hf =>
    refine h.frame rfl rfl rfl fun q => loadOf_congr rfl rfl ?_
    rw [State.record_setRecord]
    split
    · next e => subst e; exact hf _
    · rfl
  | session p f =>
    refine h.frame rfl rfl rfl fun q => loadOf_congr rfl ?_ rfl
    rw [State.session_setSession]
    split
    · next e => subst e; exact Option.isSome_map
    · rfl
  | fault => exact h.frame rfl rfl rfl fun q => loadOf_congr rfl rfl rfl
  | endGrant p =>
    exact h.of_le rfl rfl ((committed_regrant (d := 0) p _ _ s (Nat.zero_le _)).trans_eq (Nat.add_zero _))
      (List.length_erase_le)
  | startRelease p _ hg =>
    refine h.of_le rfl rfl ((committed_regrant (d := 0) p _ _ s ?_).trans_eq (Nat.add_zero _)) (List.length_erase_le)
    rw [hg]
    exact le_rfl
  | joinQueue p =>
    exact h.of_le rfl rfl ((committed_regrant (d := 0) p _ _ s (Nat.zero_le _)).trans_eq (Nat.add_zero _))
      (Nat.le_refl _)
  | giveGrant p rest _ hq hm =>
    obtain ⟨-, hpending, hload⟩ := State.mayGrant_iff.mp hm
    refine .inl ⟨hpending, le_trans ?_ hload⟩
    have hvol : ∀ q, q ≠ p → (giveGrant p s).vol q = s.vol q := fun q hne => vol_setVol_ne _ hne _
    refine committed_le p (fun q hne => loadOf_congr (by rw [hvol q hne]) rfl rfl) ?_
    unfold State.loadOf
    have : (if ((giveGrant p s).vol p).grant.counted then s.heaterDemand p else 0) ≤ s.heaterDemand p := by
      split <;> omega
    have hrest : (giveGrant p s).motorLoad p = s.motorLoad p ∧ (giveGrant p s).heaterDemand p = s.heaterDemand p
      ∧ (giveGrant p s).session p = s.session p := ⟨rfl, rfl, rfl⟩
    obtain ⟨h1, h2, h3⟩ := hrest
    rw [h1, h2, h3]
    omega
  | budget n _ hn => exact .inl ⟨rfl, hn⟩
  | hold p ses ses' id f _ hs _ => exact journal p _ ses hs fun q hq => session_set _ hq
  | cancel p ses id f _ hs _ => exact journal p _ ses hs fun q hq => session_set _ hq
  | close p ses id f r _ hs _ => exact journal p _ ses hs fun q hq => session_set _ hq
  | beginSession p ses id f _ hs _ _ _ hload =>
    have hret := journalled_ret (holdEntry id f none (.record p ses) s) s
    rw [applyEntry_eq] at hret
    have hcommitted := committed_journalled (d := s.motorLoad p) p (holdEntry id f none (.record p ses) s) s
      (fun q hq => session_set _ hq) (by split <;> omega)
    rcases h with ⟨h1, -⟩ | ⟨h1, h2⟩
    · exact .inl ⟨by rw [hret]; exact h1, by rw [hret]; exact hcommitted.trans hload⟩
    · exact .inr ⟨by rw [hret]; exact h1, by rw [journalled_eq]; exact h2⟩

theorem budgetHolds_moves {k : Nat} (m : Moves s t) (h : BudgetHolds k s) : BudgetHolds k t := by
  induction m with
  | refl => exact h
  | tail _ m ih => exact budgetHolds_move m ih

/-! ## The newest dryer and the load still drawn -/

/-- A position is GRANTED and a dryer (R124). -/
def State.drawnDryer (s : State) (p : PosIx) : Bool := (s.vol p).grant == .granted && s.isDryer p

theorem newestDryer_eq_some : s.newestDryer = some p ↔ s.drawnDryer p = true
    ∧ ∃ older newer, s.heat.order = older ++ p :: newer ∧ ∀ q ∈ newer, s.drawnDryer q = false := by
  have hdef : s.newestDryer = s.heat.order.reverse.find? s.drawnDryer := rfl
  rw [hdef, List.find?_eq_some_iff_append]
  refine and_congr_right fun _ => ⟨fun ⟨as, bs, h, hno⟩ => ⟨bs.reverse, as.reverse, ?_, fun q hq => ?_⟩,
    fun ⟨older, newer, h, hno⟩ => ⟨newer.reverse, older.reverse, ?_, fun q hq => ?_⟩⟩
  · rw [← List.reverse_reverse s.heat.order, h]
    simp
  · simpa using hno q (List.mem_reverse.mp hq)
  · rw [h]
    simp
  · simpa using hno q (List.mem_reverse.mp hq)

theorem newestDryer_eq_none : s.newestDryer = none ↔ ∀ q ∈ s.heat.order, s.drawnDryer q = false := by
  have hdef : s.newestDryer = s.heat.order.reverse.find? s.drawnDryer := rfl
  rw [hdef, List.find?_eq_none]
  simp

theorem stillDrawn_le (s : State) : s.stillDrawn ≤ s.committed := Nat.sub_le _ _

/-- The demand of the RELEASING positions (R124). -/
def State.released (s : State) : Nat :=
  (allPositions.map fun p => if (s.vol p).grant = .releasing then s.heaterDemand p else 0).sum

theorem released_le (s : State) : s.released ≤ s.committed := by
  refine List.sum_le_sum fun p _ => ?_
  unfold State.loadOf
  split
  · next h =>
    rw [h]
    exact Nat.le_add_left _ _
  · exact Nat.zero_le _

/-! ## The withdrawals of a pending budget -/

/-- Some withdrawals, one after the other. -/
def withdrawAll (ps : List PosIx) (s : State) : State := ps.foldl (fun u p => withdraw p u) s

theorem withdrawAll_room (ps : List PosIx) : ∀ s : State, RoomStep s (withdrawAll ps s) := by
  induction ps with
  | nil => exact RoomStep.refl
  | cons p rest ih => exact fun s => (told_withdraw p s).room.trans (ih _)

theorem withdrawAll_budgets (ps : List PosIx) : ∀ s : State, BudgetStep s (withdrawAll ps s) := by
  induction ps with
  | nil => exact fun s => .inl ⟨rfl, rfl⟩
  | cons p rest ih => exact fun s => (told_withdraw p s).budgets.trans (ih _)

/-- A position that is not withdrawn and does not wait is not touched. -/
theorem withdrawAll_others (ps : List PosIx) (hp : p ∉ ps) : ∀ s : State, p ∉ s.heat.queue →
    (withdrawAll ps s).vol p = s.vol p := by
  induction ps with
  | nil => exact fun s _ => rfl
  | cons x rest ih =>
    intro s hq
    obtain ⟨hne, hrest⟩ := not_or.mp (mt List.mem_cons.mpr hp)
    obtain ⟨hvol, hout⟩ := (told_withdraw x s).kept.others p hne hq
    exact (ih hrest (withdraw x s) hout).trans hvol

theorem RoomStep.isDryer (h : RoomStep s t) (p : PosIx) : t.isDryer p = s.isDryer p := by
  unfold RoomStep at h
  rw [h]
  rfl

/-- Before the `k`-th withdrawal the load still drawn exceeds the pending value, and the newest dryer is the next
(R124). -/
def InTurn (n : Nat) (ps : List PosIx) (s : State) : Prop :=
  ∀ k p, ps[k]? = some p → n < (withdrawAll (ps.take k) s).stillDrawn ∧ (withdrawAll (ps.take k) s).newestDryer = some p

theorem InTurn.cons {n : Nat} {ps : List PosIx} (hn : n < s.stillDrawn) (hp : s.newestDryer = some p)
    (h : InTurn n ps (withdraw p s)) : InTurn n (p :: ps) s := by
  intro k q hk
  cases k with
  | zero =>
    obtain rfl : p = q := by simpa using hk
    exact ⟨hn, hp⟩
  | succ k => exact h k q (by simpa using hk)

theorem InTurn.dryers {n : Nat} {ps : List PosIx} (h : InTurn n ps s) (hp : p ∈ ps) : s.isDryer p = true := by
  obtain ⟨k, hk⟩ := List.mem_iff_getElem?.mp hp
  have hdryer := (newestDryer_eq_some.mp (h k p hk).2).1
  rw [State.drawnDryer, Bool.and_eq_true, (withdrawAll_room _ s).isDryer] at hdryer
  exact hdryer.2

/-- While the pending budget is not met each withdrawal shortens the grant order (R124). -/
theorem budgetHolds_withdraw {k : Nat} (hp : s.newestDryer = some p) (hk : s.heat.order.length ≤ k + 1)
    (hpending : s.ret.pendingBudget ≠ none) : BudgetHolds k (withdraw p s) := by
  obtain ⟨hdrawn, older, newer, horder, -⟩ := newestDryer_eq_some.mp hp
  have hg : (s.vol p).grant = .granted := by
    rw [State.drawnDryer, Bool.and_eq_true, beq_iff_eq] at hdrawn
    exact hdrawn.1
  have hlen : (startRelease p s).heat.order.length ≤ k := by
    have : (s.heat.order.erase p).length = s.heat.order.length - 1 :=
      List.length_erase_of_mem (by rw [horder]; simp)
    change (s.heat.order.erase p).length ≤ k
    omega
  rw [withdraw_of_granted hg]
  exact budgetHolds_moves (askUrgentFor_moves (fun _ s => s) (fun _ {_ _} h => h) _ p 12 .refl) (.inr ⟨hpending, hlen⟩)

/-- The dryers that SET BUDGET withdraws (R124). -/
theorem withdrawDryers_spec (n : Nat) : ∀ (k : Nat) (s : State),
    (s.ret.pendingBudget = some n ∧ s.heat.order.length ≤ k
      ∨ s.ret.pendingBudget = none ∧ s.ret.budget = n ∧ s.committed ≤ s.ret.budget) →
    ∃ ps, withdrawDryers k n s = withdrawAll ps s ∧ InTurn n ps s
      ∧ ((withdrawAll ps s).stillDrawn ≤ n ∨ (withdrawAll ps s).newestDryer = none) := by
  have stop : ∀ s : State, s.stillDrawn ≤ n ∨ s.newestDryer = none → ∃ ps, s = withdrawAll ps s ∧ InTurn n ps s
      ∧ ((withdrawAll ps s).stillDrawn ≤ n ∨ (withdrawAll ps s).newestDryer = none) := fun s h =>
    ⟨[], rfl, fun k p hk => by simp at hk, h⟩
  intro k
  induction k with
  | zero =>
    intro s h
    refine stop s (h.imp (fun ⟨_, hlen⟩ => ?_) fun ⟨_, hb, hc⟩ => (stillDrawn_le s).trans (hb ▸ hc)).symm
    rw [newestDryer_eq_none, List.eq_nil_of_length_eq_zero (Nat.le_zero.mp hlen)]
    exact fun q hq => absurd hq List.not_mem_nil
  | succ k ih =>
    intro s h
    unfold withdrawDryers
    split
    · next hle => exact stop s (.inl hle)
    · next hgt =>
      cases hp : s.newestDryer with
      | none => exact stop s (.inr hp)
      | some p =>
        obtain ⟨hpending, hlen⟩ := h.resolve_right fun ⟨_, hb, hc⟩ => hgt ((stillDrawn_le s).trans (hb ▸ hc))
        have hholds := budgetHolds_withdraw hp hlen (by rw [hpending]; exact fun e => nomatch e)
        have hnext : (withdraw p s).ret.pendingBudget = some n ∧ (withdraw p s).heat.order.length ≤ k
            ∨ (withdraw p s).ret.pendingBudget = none ∧ (withdraw p s).ret.budget = n
              ∧ (withdraw p s).committed ≤ (withdraw p s).ret.budget := by
          rcases (told_withdraw p s).budgets with ⟨hsame, -⟩ | ⟨m, hm, hnone, hb⟩
          · rw [hpending] at hsame
            refine .inl ⟨hsame, (hholds.resolve_left fun h => ?_).2⟩
            rw [hsame] at h
            exact nomatch h.1
          · rw [hpending] at hm
            exact .inr ⟨hnone, hb.trans (Option.some.inj hm).symm, (hholds.resolve_right fun h => h.1 hnone).2⟩
        obtain ⟨ps, heq, hturn, hdone⟩ := ih (withdraw p s) hnext
        exact ⟨p :: ps, heq, hturn.cons (Nat.lt_of_not_le hgt) hp, hdone⟩

/-! ## Where each HEAT_OFF finds a place -/

/-- The HEAT_OFF of a withdrawal finds a place or is merged, and no HEAT_ON absorbs it (R38). -/
def State.clearWay (s : State) (p : PosIx) : Prop :=
  (∀ o ∈ (s.vol p).orders, o.tag = none → o.body ≠ .heatOn)
    ∧ ((s.vol p).orders.length < 4 ∨ ∃ o ∈ (s.vol p).orders, o.tag = none ∧ o.body = .heatOff)

/-- The newest dryers of the grant order, those to withdraw first (R124). -/
def State.dryersByAge (s : State) : List PosIx := s.heat.order.reverse.filter s.isDryer

theorem newestDryer_of_granted (hg : ∀ q ∈ s.heat.order, (s.vol q).grant = .granted) :
    s.newestDryer = s.dryersByAge.head? := by
  have hdef : s.newestDryer = s.heat.order.reverse.find? s.drawnDryer := rfl
  have hsame : ∀ xs : List PosIx, (∀ q ∈ xs, (s.vol q).grant = .granted) →
      xs.find? s.drawnDryer = xs.find? s.isDryer := by
    intro xs
    induction xs with
    | nil => exact fun _ => rfl
    | cons x xs ih =>
      intro h
      have hx : s.drawnDryer x = s.isDryer x := by
        rw [State.drawnDryer, h x List.mem_cons_self]
        rfl
      rw [List.find?_cons, List.find?_cons, hx, ih fun q hq => h q (List.mem_cons_of_mem _ hq)]
  rw [hdef, hsame _ fun q hq => hg q (List.mem_reverse.mp hq), State.dryersByAge, List.head?_filter]

/-- The state behind a withdrawal that leaves a RELEASING grant (R129). -/
def State.withdrawn (s : State) (p : PosIx) : State :=
  { s with
    pos := s.pos.set p.val ((s.vol p).ended .releasing (withHeatOff (s.vol p).orders))
    heat := { s.heat with order := s.heat.order.erase p } }

theorem vol_withdrawn (p q : PosIx) (s : State) : (s.withdrawn p).vol q
    = if p = q then (s.vol p).ended .releasing (withHeatOff (s.vol p).orders) else s.vol q :=
  State.vol_setVol p q (fun _ => (s.vol p).ended .releasing (withHeatOff (s.vol p).orders)) s

theorem committed_withdrawn (hg : (s.vol p).grant = .granted) : (s.withdrawn p).committed = s.committed := by
  refine committed_congr fun q => ?_
  by_cases hq : p = q
  · subst hq
    unfold State.loadOf
    rw [vol_withdrawn, if_pos rfl, hg]
    rfl
  · exact loadOf_congr (by rw [vol_withdrawn, if_neg hq]) rfl rfl

theorem stillDrawn_withdrawn (hg : (s.vol p).grant = .granted) :
    (s.withdrawn p).stillDrawn = s.stillDrawn - s.heaterDemand p := by
  have hdemand : ∀ q, (s.withdrawn p).heaterDemand q = s.heaterDemand q := fun _ => rfl
  have hsum : (s.withdrawn p).released = s.released + s.heaterDemand p := by
    have := sum_update (f := fun q => if ((s.withdrawn p).vol q).grant = .releasing then s.heaterDemand q else 0)
      (g := fun q => if (s.vol q).grant = .releasing then s.heaterDemand q else 0) p fun q hq => by
        rw [vol_withdrawn, if_neg (Ne.symm hq)]
    rw [vol_withdrawn, if_pos rfl, if_pos (show (PosState.ended _ _ _).grant = .releasing from rfl), hg,
      if_neg (fun e => nomatch e), Nat.add_zero] at this
    exact this
  have hdef : ∀ u : State, u.stillDrawn = u.committed - u.released := fun _ => rfl
  rw [hdef, hdef, committed_withdrawn hg, hsum, Nat.sub_sub]

theorem dryersByAge_withdrawn {rest : List PosIx} (hnd : s.heat.order.Nodup) (h : s.dryersByAge = p :: rest) :
    (s.withdrawn p).dryersByAge = rest := by
  have hp : s.isDryer p = true := (List.mem_filter.mp (h ▸ List.mem_cons_self : p ∈ s.dryersByAge)).2
  have hmem : p ∈ s.heat.order.reverse := (List.mem_filter.mp (h ▸ List.mem_cons_self : p ∈ s.dryersByAge)).1
  have herase : (s.heat.order.erase p).reverse = s.heat.order.reverse.erase p := by
    rw [hnd.erase_eq_filter, (List.nodup_reverse.mpr hnd).erase_eq_filter, List.filter_reverse]
  change (s.heat.order.erase p).reverse.filter s.isDryer = rest
  rw [herase, ← List.erase_filter, ← List.cons_inj_right p, ← h]
  change p :: s.dryersByAge.erase p = s.dryersByAge
  rw [h, List.erase_cons_head]

/-- Exactly the newest dryers needed become RELEASING (R124). -/
theorem withdrawDryers_exact (n : Nat) : ∀ (k : Nat) (s : State), s.heat.order.length ≤ k → s.heat.order.Nodup →
    (∀ q ∈ s.heat.order, (s.vol q).grant = .granted) → (∀ q ∈ s.heat.order, s.isDryer q = true → s.clearWay q) →
    ∃ (taken left : List PosIx) (pos : Vector PosState 24),
      s.dryersByAge = taken ++ left
      ∧ (∀ j < taken.length, n < s.stillDrawn - ((taken.take j).map s.heaterDemand).sum)
      ∧ (s.stillDrawn - (taken.map s.heaterDemand).sum ≤ n ∨ left = [])
      ∧ withdrawDryers k n s = { s with
          pos := pos, heat := { s.heat with order := s.heat.order.filter fun p => p ∉ taken } }
      ∧ (∀ p ∈ taken, pos[p.val] = (s.vol p).ended .releasing (withHeatOff (s.vol p).orders))
      ∧ ∀ p, p ∉ taken → pos[p.val] = s.vol p := by
  have stop : ∀ s : State, s.stillDrawn ≤ n ∨ s.dryersByAge = [] → ∃ (taken left : List PosIx) (pos : Vector PosState 24),
      s.dryersByAge = taken ++ left
      ∧ (∀ j < taken.length, n < s.stillDrawn - ((taken.take j).map s.heaterDemand).sum)
      ∧ (s.stillDrawn - (taken.map s.heaterDemand).sum ≤ n ∨ left = [])
      ∧ s = { s with
          pos := pos, heat := { s.heat with order := s.heat.order.filter fun p => p ∉ taken } }
      ∧ (∀ p ∈ taken, pos[p.val] = (s.vol p).ended .releasing (withHeatOff (s.vol p).orders))
      ∧ ∀ p, p ∉ taken → pos[p.val] = s.vol p := fun s h => by
    refine ⟨[], s.dryersByAge, s.pos, rfl, fun j hj => absurd hj (Nat.not_lt_zero _),
      h.imp_left fun h => (Nat.sub_le _ _).trans h, ?_,
      fun p hp => absurd hp List.not_mem_nil, fun _ _ => rfl⟩
    have : s.heat.order.filter (fun p => p ∉ ([] : List PosIx)) = s.heat.order := List.filter_eq_self.mpr (by simp)
    rw [this]
  intro k
  induction k with
  | zero =>
    intro s hlen _ _ _
    refine stop s (.inr ?_)
    rw [State.dryersByAge, List.eq_nil_of_length_eq_zero (Nat.le_zero.mp hlen)]
    rfl
  | succ k ih =>
    intro s hlen hnd hg hway
    unfold withdrawDryers
    split
    · next hle => exact stop s (.inl hle)
    · next hgt =>
      have hnewest := newestDryer_of_granted hg
      cases hage : s.dryersByAge with
      | nil =>
        rw [hage] at hnewest
        obtain ⟨taken, left, pos, h⟩ := stop s (.inr hage)
        rw [hage] at h
        rw [hnewest]
        exact ⟨taken, left, pos, h⟩
      | cons p rest =>
        rw [hage] at hnewest
        rw [hnewest]
        obtain ⟨hmem, hdryer⟩ := List.mem_filter.mp (hage ▸ List.mem_cons_self : p ∈ s.dryersByAge)
        have horder := List.mem_reverse.mp hmem
        obtain ⟨hon, hroom⟩ := hway p horder hdryer
        have heq : withdraw p s = s.withdrawn p := withdraw_of_room (hg p horder) hon hroom
        have hvol : ∀ q, q ≠ p → (s.withdrawn p).vol q = s.vol q := fun q hne => by
          rw [vol_withdrawn, if_neg (Ne.symm hne)]
        have hrest : ∀ q ∈ (s.withdrawn p).heat.order, q ≠ p ∧ q ∈ s.heat.order := fun q hq => hnd.mem_erase_iff.mp hq
        have hnotin : p ∉ rest := by
          have : s.dryersByAge.Nodup := (List.nodup_reverse.mpr hnd).filter _
          rw [hage] at this
          exact (List.nodup_cons.mp this).1
        have hshort : (s.withdrawn p).heat.order.length ≤ k := by
          have : (s.heat.order.erase p).length = s.heat.order.length - 1 := List.length_erase_of_mem horder
          change (s.heat.order.erase p).length ≤ k
          omega
        obtain ⟨taken, left, pos, hsplit, hturn, hdone, hres, htaken, hothers⟩ := ih (s.withdrawn p) hshort
          (hnd.erase p) (fun q hq => by rw [hvol q (hrest q hq).1]; exact hg q (hrest q hq).2)
          fun q hq hd => by
            obtain ⟨hne, hq⟩ := hrest q hq
            unfold State.clearWay
            rw [hvol q hne]
            exact hway q hq hd
        rw [dryersByAge_withdrawn hnd hage] at hsplit
        rw [stillDrawn_withdrawn (hg p horder)] at hturn hdone
        have hfresh : ∀ q ∈ taken, q ≠ p := fun q hq e => hnotin (by rw [hsplit, ← e]; exact List.mem_append_left _ hq)
        refine ⟨p :: taken, left, pos, by rw [hsplit]; rfl, fun j hj => ?_, ?_, ?_, fun q hq => ?_, fun q hq => ?_⟩
        · cases j with
          | zero => exact (Nat.lt_of_not_le hgt).trans_eq (Nat.sub_zero _).symm
          | succ j =>
            have := hturn j (by simpa using hj)
            rw [Nat.sub_sub] at this
            exact this
        · rw [Nat.sub_sub] at hdone
          exact hdone
        · dsimp only [List.head?_cons]
          rw [heq, hres]
          have : (s.withdrawn p).heat.order.filter (fun q => q ∉ taken)
              = s.heat.order.filter fun q => q ∉ p :: taken := by
            change (s.heat.order.erase p).filter _ = _
            rw [hnd.erase_eq_filter, List.filter_filter]
            refine List.filter_congr fun q _ => ?_
            rw [Bool.eq_iff_iff]
            simp [and_comm]
          rw [this]
          rfl
        · by_cases he : q = p
          · subst he
            rw [hothers q fun h => hfresh q h rfl, vol_withdrawn, if_pos rfl]
          · rw [htaken q ((List.mem_cons.mp hq).resolve_left he), hvol q he]
        · obtain ⟨hne, hq⟩ := not_or.mp (mt List.mem_cons.mpr hq)
          rw [hothers q hq, hvol q hne]

/-! ## SET BUDGET -/

theorem withdrawDryers_relink (l : LinkState) (n : Nat) (k : Nat) : ∀ s : State,
    withdrawDryers k n (s.relink l) = (withdrawDryers k n s).relink l := by
  induction k with
  | zero => exact fun _ => rfl
  | succ k ih =>
    intro s
    unfold withdrawDryers
    refine ite_relink rfl ?_
    rw [show (s.relink l).newestDryer = s.newestDryer from rfl]
    cases s.newestDryer with
    | none => rfl
    | some p =>
      dsimp only
      rw [withdraw_relink, ih]

theorem applyBudget_relink (l : LinkState) (n : Nat) (s : State) :
    applyBudget n (s.relink l) = (applyBudget n s).relink l :=
  ite_relink (evaluate_relink (s.write fun r => { r with budget := n, pendingBudget := none }))
    (withdrawDryers_relink l n _ (s.write fun r => { r with pendingBudget := some n }))

theorem RoomStep.link (h : RoomStep s t) : t.link = s.link := by
  unfold RoomStep at h
  rw [h]

theorem relink_self {l : LinkState} (h : s.link = l) : s.relink l = s := by
  subst h
  rfl

theorem num1_toNat (b : Byte) : num1 b.toNat = b := by simp [num1]

theorem exec_setBudget {tag value : Byte} (h : LinkReady s) (hn : value.toNat ≤ 250)
    (hx : applyBudget value.toNat s.fresh = t) (hlink : t.link = s.link) :
    exec (.setBudget tag value) s
      = .next (State.replied t 0x40#8 tag [num1 t.ret.budget, opt1 t.ret.pendingBudget]) := by
  have happly : applyBudget value.toNat (s.heard (.setBudget value) tag)
      = t.relink (s.heard (.setBudget value) tag).link := by
    rw [← hx, ← applyBudget_relink]
    rfl
  have hv : processSetBudget value (s.heard (.setBudget value) tag)
      = accept [num1 t.ret.budget, opt1 t.ret.pendingBudget] (t.relink (s.heard (.setBudget value) tag).link) := by
    refine (if_neg (Nat.not_lt.mpr hn)).trans ?_
    dsimp only
    rw [happly]
    rfl
  refine (request_accepted (r := .setBudget value) h hv rfl).trans ?_
  exact congrArg (fun u => Host.Outcome.next (State.replied u 0x40#8 tag _)) (relink_self hlink)

theorem committed_fresh (s : State) : s.fresh.committed = s.committed := committed_congr fun _ => rfl

theorem applyBudget_of_met {n : Nat} (h : s.committed ≤ n) :
    applyBudget n s = evaluate (s.write fun r => { r with budget := n, pendingBudget := none }) := by
  rw [applyBudget, if_pos h]

theorem applyBudget_of_exceeded {n : Nat} (h : n < s.committed) :
    applyBudget n s = withdrawDryers s.heat.order.length n (s.write fun r => { r with pendingBudget := some n }) := by
  rw [applyBudget, if_neg (Nat.not_le.mpr h)]
  rfl

/-- Settles O26. -/
theorem setBudgetAppliesOrWaits : Obligations.SetBudgetAppliesOrWaits := by
  unfold Obligations.SetBudgetAppliesOrWaits
  refine ⟨fun tag value s h => ?_, fun s => ?_⟩
  · intro n applied waiting replied
    have hroom : RoomStep s applied ∧ RoomStep s waiting := ⟨rfl, rfl⟩
    have happlied : s.committed ≤ n → applyBudget n s.fresh = evaluate applied := fun hle =>
      applyBudget_of_met (s := s.fresh) ((committed_fresh s).trans_le hle)
    have hwaiting : n < s.committed → applyBudget n s.fresh = withdrawDryers waiting.heat.order.length n waiting :=
      fun hlt => applyBudget_of_exceeded (s := s.fresh) (hlt.trans_eq (committed_fresh s).symm)
    refine ⟨fun hbig => request_refused (r := .setBudget value) h (if_pos hbig), fun hn hle => ?_, fun hn hlt => ?_,
      fun hn hlt hs hway => ?_⟩
    · have told := told_evaluate 0 applied
      have hexec := exec_setBudget (tag := tag) h hn (happlied hle) told.room.link
      obtain ⟨hpending, hbudget⟩ : (evaluate applied).ret.pendingBudget = none ∧ (evaluate applied).ret.budget = n := by
        rcases told.budgets with ⟨h1, h2⟩ | ⟨m, h1, -⟩
        · exact ⟨h1, h2⟩
        · exact nomatch h1
      have hlink := told.room.link
      refine ⟨_, hexec, rfl, hbudget, hpending, ?_, ?_, fun hempty => ?_⟩
      · have : RoomStep s (evaluate applied) := hroom.1.trans told.room
        have hself : (evaluate applied).relink s.link = evaluate applied := relink_self hlink
        exact (congrArg (RoomStep s) hself).mpr this
      · have hpayload : [num1 (evaluate applied).ret.budget, opt1 (evaluate applied).ret.pendingBudget]
            = [value, 0xFF#8] := by
          rw [hbudget, hpending]
          exact congrArg (fun b => [b, 0xFF#8]) (num1_toNat value)
        rw [hpayload]
        change (evaluate applied).link.transmit ++ _ = _
        rw [hlink]
      · have : evaluate applied = applied := evaluate_of_empty hempty
        rw [this]
        exact congrArg (fun b => State.replied applied 0x40#8 tag [b, 0xFF#8]) (num1_toNat value)
    · obtain ⟨ps, heq, hturn, hdone⟩ := withdrawDryers_spec n waiting.heat.order.length waiting (.inl ⟨rfl, le_rfl⟩)
      have hw := (hwaiting hlt).trans heq
      have told := withdrawAll_room ps waiting
      have hexec := exec_setBudget (tag := tag) h hn hw told.link
      refine ⟨_, ps, hexec, ?_, hturn, hdone, ?_, ?_, fun hs p hg hd => ?_, fun hnone => ?_⟩
      · exact congrArg (fun xs => replied (withdrawAll xs waiting)) List.take_length.symm
      · rcases withdrawAll_budgets ps waiting with ⟨h1, h2⟩ | ⟨m, h1, h2, h3⟩
        · exact .inl ⟨h1, h2⟩
        · exact .inr ⟨h2, h3.trans (Option.some.inj h1).symm⟩
      · have : RoomStep s (withdrawAll ps waiting) := hroom.2.trans told
        have hself : (withdrawAll ps waiting).relink s.link = withdrawAll ps waiting := relink_self told.link
        exact (congrArg (RoomStep s) hself).mpr this
      · have hout : p ∉ waiting.heat.queue :=
          ((heatLaw_iff (s := s)).mp hs).1.not_mem_queue (by rw [hg]; exact fun e => nomatch e)
        refine withdrawAll_others ps (fun hmem => ?_) waiting hout
        have : waiting.isDryer p = true := hturn.dryers hmem
        rw [show waiting.isDryer p = s.isDryer p from rfl, hd] at this
        exact nomatch this
      · have hnil : ps = [] := by
          cases ps with
          | nil => rfl
          | cons p rest =>
            have : waiting.newestDryer = some p := (hturn 0 p rfl).2
            rw [show waiting.newestDryer = s.newestDryer from rfl, hnone] at this
            exact nomatch this
        subst hnil
        rfl
    · obtain ⟨hcore, -⟩ := (heatLaw_iff (s := s)).mp hs
      obtain ⟨taken, left, pos, hsplit, hturn, hdone, hres, htaken, hothers⟩ :=
        withdrawDryers_exact n waiting.heat.order.length waiting le_rfl hcore.order_nodup
          (fun q hq => (hcore.mem_order q).mp hq) fun q hq hd => hway q ((hcore.mem_order q).mp hq) hd
      have hw := (hwaiting hlt).trans hres
      have hexec := exec_setBudget (tag := tag) h hn hw rfl
      refine ⟨taken, left, pos, hsplit, hturn, hdone, hexec.trans ?_, htaken, hothers⟩
      exact congrArg (fun b => Host.Outcome.next (State.replied _ 0x40#8 tag [num1 s.ret.budget, b]))
        (num1_toNat value)
  · have hdrawn : ∀ q, s.drawnDryer q = true ↔ (s.vol q).grant = .granted ∧ s.isDryer q = true := fun q => by
      rw [State.drawnDryer, Bool.and_eq_true, beq_iff_eq]
    intro holds
    refine ⟨fun p => ?_, ?_, ?_⟩
    · rw [newestDryer_eq_some, hdrawn]
      refine and_congr_right fun hp => exists_congr fun older => exists_congr fun newer => and_congr_right fun _ => ?_
      refine ⟨fun hno => ⟨fun hmem => ?_, fun q hq hh => ?_⟩, fun ⟨_, hno⟩ q hq => ?_⟩
      · have := hno p hmem
        rw [(hdrawn p).mpr hp] at this
        exact nomatch this
      · have := hno q hq
        rw [(hdrawn q).mpr hh] at this
        exact nomatch this
      · exact Bool.eq_false_iff.mpr fun hd => hno q hq ((hdrawn q).mp hd)
    · rw [newestDryer_eq_none]
      exact forall_congr' fun q => forall_congr' fun _ => by rw [Bool.eq_false_iff, ne_eq, hdrawn]
    · exact Nat.sub_add_cancel (released_le s)

end Sys2Proof.Machine
end

section
/-! The end of a RELEASING grant, and a fall of committed load (R120, R124, R131, R132, R137). -/

namespace Sys2Proof.Machine

variable {s t u : State} {p q : PosIx}

/-! ## A fall of committed load -/

theorem activatePending_of_none (h : s.ret.pendingBudget = none) : activatePending s = s := by
  unfold activatePending
  rw [h]

theorem activatePending_of_some {n : Nat} (h : s.ret.pendingBudget = some n) : activatePending s
    = if s.committed ≤ n then s.write fun r => { r with budget := n, pendingBudget := none } else s := by
  unfold activatePending
  rw [h]

/-- While a budget is pending nothing is granted (R127). -/
theorem evaluate_of_pending (h : s.ret.pendingBudget ≠ none) : evaluate s = s := by
  cases hq : s.heat.queue with
  | nil => exact evaluate_of_empty hq
  | cons p rest => exact evaluate_of_stop hq (Bool.eq_false_iff.mpr fun hm => h (State.mayGrant_iff.mp hm).2.1)

theorem grantStep_evaluate (s : State) : GrantStep s (evaluate s) := by
  refine evaluate_induction (motive := GrantStep) GrantStep.refl (fun s x rest t hq _ h => GrantStep.trans ?_ h) s
  obtain ⟨v, order, queue, heq, -⟩ := grantHead_spec hq
  rw [heq]
  rfl

theorem grantStep_committedFell (s : State) : GrantStep s (committedFell s) :=
  (grantStep_activatePending s).trans (grantStep_evaluate _)

/-! ## The release test -/

theorem releaseEnds_iff {on : Bool} : s.releaseEnds p on = true ↔
    (s.vol p).grant = .releasing ∧ on = false ∧ (s.vol p).heatOffStands = false := by
  simp [State.releaseEnds, and_assoc]

theorem State.mayQueue_of_grant (h : (s.vol p).grant ≠ .none) : s.mayQueue p = false :=
  Bool.eq_false_iff.mpr fun hm => h (State.mayQueue_iff.mp hm).2.2

/-- The position remembers its last heat request (R132). -/
def State.askedHeat (s : State) (p : PosIx) (request : Bool) : State :=
  s.setVol p fun v => { v with heatRequest := request }

theorem grant_askedHeat (p : PosIx) (request : Bool) (s : State) :
    ((s.askedHeat p request).vol p).grant = (s.vol p).grant := by
  rw [State.askedHeat, State.vol_setVol, if_pos rfl]

theorem mayQueue_askedHeat (p : PosIx) (request : Bool) (s : State) :
    (s.askedHeat p request).mayQueue p = s.mayQueue p := by
  unfold State.mayQueue
  rw [grant_askedHeat]
  rfl

/-- A STATE that does not end the release of a RELEASING grant (R131). -/
theorem heatTakesState_stays {on request : Bool} (hg : ((testViolation p on s).vol p).grant = .releasing)
    (h : on = true ∨ ((testViolation p on s).vol p).heatOffStands = true) :
    heatTakesState p on request s = (testViolation p on s).askedHeat p request := by
  have hends : (testViolation p on s).releaseEnds p on = false := Bool.eq_false_iff.mpr fun he => by
    obtain ⟨-, hon, hoff⟩ := releaseEnds_iff.mp he
    rcases h with h | h
    · rw [hon] at h; exact nomatch h
    · rw [hoff] at h; exact nomatch h
  have hmay : ((testViolation p on s).askedHeat p request).mayQueue p = false := by
    rw [mayQueue_askedHeat]
    exact State.mayQueue_of_grant (by rw [hg]; exact fun e => nomatch e)
  have hdone : withdraw p ((testViolation p on s).askedHeat p request) = (testViolation p on s).askedHeat p request :=
    withdraw_of_ended (.inr ((grant_askedHeat ..).trans hg))
  unfold heatTakesState
  dsimp only
  rw [hends]
  generalize testViolation p on s = u at *
  cases request with
  | false => exact hdone
  | true =>
    refine (if_pos rfl).trans (if_neg ?_)
    rw [Bool.and_eq_true]
    exact fun h => Bool.eq_false_iff.mp hmay h.2

/-- The session of a position is RUNNING, it has a heater, and it asks for heat (R126, R131). -/
def State.wantsHeat (s : State) (p : PosIx) (request : Bool) : Prop :=
  request = true ∧ s.sessionIs p .running = true ∧ 0 < s.heaterDemand p

/-- A STATE that ends a RELEASING grant (R131, R132). -/
theorem heatTakesState_ends {request : Bool} (hg : ((testViolation p false s).vol p).grant = .releasing)
    (hout : p ∉ (testViolation p false s).heat.queue)
    (hoff : ((testViolation p false s).vol p).heatOffStands = false) :
    let u := testViolation p false s
    let w := activatePending (endGrant p u)
    (u.wantsHeat p request → heatTakesState p false request s = (evaluate (joinQueue p w)).askedHeat p request)
    ∧ (¬ u.wantsHeat p request → heatTakesState p false request s = (evaluate w).askedHeat p request) := by
  intro u w
  have hends : u.releaseEnds p false = true := releaseEnds_iff.mpr ⟨hg, rfl, hoff⟩
  have hstep : GrantStep u w := GrantStep.trans (t := endGrant p u) rfl (grantStep_activatePending _)
  have hvol : w.vol p = (u.vol p).ended .none (u.vol p).orders :=
    (vol_activatePending p (endGrant p u)).trans (vol_grantEnded p (u.vol p).orders u)
  have hnone : (w.vol p).grant = .none := by rw [hvol]; rfl
  have hnot : p ∉ w.heat.queue := by
    have : w.heat = (endGrant p u).heat := heat_activatePending _
    rw [this]
    exact fun hmem => hout (List.mem_of_mem_erase hmem)
  have hmay : w.mayQueue p = true ↔ u.sessionIs p .running = true ∧ 0 < u.heaterDemand p := by
    rw [State.mayQueue_iff, heaterDemand_grantStep hstep, sessionIs_grantStep hstep]
    exact ⟨fun ⟨h1, h2, _⟩ => ⟨h1, h2⟩, fun ⟨h1, h2⟩ => ⟨h1, h2, hnone⟩⟩
  have hopen : heatTakesState p false request s =
      let v := (evaluate (if request && w.mayQueue p then joinQueue p w else w)).askedHeat p request
      if request then
        if !(true && request && u.sessionIs p .running && decide (0 < u.heaterDemand p)) && v.mayQueue p
        then evaluate (joinQueue p v) else v
      else withdraw p v := by
    unfold heatTakesState
    dsimp only
    rw [show (testViolation p false s).releaseEnds p false = true from hends]
    rfl
  rw [hopen]
  refine ⟨fun ⟨hreq, hrun, hheat⟩ => ?_, fun hno => ?_⟩
  · subst hreq
    dsimp only
    rw [if_pos rfl, if_neg (by simp [hrun, hheat]), Bool.true_and, if_pos (hmay.mpr ⟨hrun, hheat⟩)]
  · have hjoin : (request && w.mayQueue p) = false := Bool.eq_false_iff.mpr fun h => by
      rw [Bool.and_eq_true] at h
      exact hno ⟨h.1, hmay.mp h.2⟩
    dsimp only
    rw [hjoin, if_neg Bool.false_ne_true]
    obtain ⟨hvol', -⟩ := evaluate_idle hnot
    cases request with
    | false =>
      refine withdraw_of_ended (.inl ?_)
      rw [grant_askedHeat, hvol', hnone]
    | true =>
      refine (if_pos rfl).trans (if_neg fun h => hno ⟨rfl, ?_⟩)
      rw [Bool.and_eq_true, mayQueue_askedHeat, State.mayQueue_iff] at h
      have heval : GrantStep u (evaluate w) := hstep.trans (grantStep_evaluate w)
      rw [sessionIs_grantStep heval, heaterDemand_grantStep heval] at h
      exact ⟨h.2.1, h.2.2.1⟩

/-! ## RELEASE HEAT -/

theorem exec_releaseHeat {tag addr : Byte} (h : LinkReady s) (hp : posOf addr = some p) (hconf : s.configured p = true)
    (hlost : (s.vol p).bus.presence = .lost) (hrel : (s.vol p).grant = .releasing) :
    exec (.releaseHeat tag addr) s
      = .next (State.replied (committedFell (endGrant p s.fresh)) 0x41#8 tag []) := by
  have hlink : (committedFell (endGrant p s.fresh)).link = s.link := (grantStep_committedFell _).room.link
  have hv : processReleaseHeat addr (s.heard (.releaseHeat addr) tag)
      = accept [] ((committedFell (endGrant p s.fresh)).relink (s.heard (.releaseHeat addr) tag).link) := by
    unfold processReleaseHeat
    rw [hp]
    dsimp only
    rw [if_neg (by rw [show (s.heard (.releaseHeat addr) tag).configured p = true from hconf]; exact Bool.false_ne_true),
      if_pos ⟨hlost, hrel⟩, ← committedFell_relink]
    rfl
  refine (request_accepted (r := .releaseHeat addr) h hv rfl).trans ?_
  exact congrArg (fun u => Host.Outcome.next (State.replied u 0x41#8 tag _)) (relink_self hlink)

theorem committed_endGrant (hg : (s.vol p).grant = .releasing) :
    (endGrant p s).committed + s.heaterDemand p = s.committed := by
  have hvol : ∀ q, (endGrant p s).vol q = if p = q then (s.vol p).ended .none (s.vol p).orders else s.vol q := fun q =>
    State.vol_setVol p q (fun _ => (s.vol p).ended .none (s.vol p).orders) s
  have hupd := committed_update (s := s) (t := endGrant p s) p fun q hne =>
    loadOf_congr (by rw [hvol, if_neg (Ne.symm hne)]) rfl rfl
  have hload : s.loadOf p = (endGrant p s).loadOf p + s.heaterDemand p := by
    unfold State.loadOf
    rw [hvol, if_pos rfl, hg]
    rfl
  omega

/-- Settles O27. -/
theorem releaseHeatEndsLostGrant : Obligations.ReleaseHeatEndsLostGrant := by
  unfold Obligations.ReleaseHeatEndsLostGrant
  intro ended
  refine ⟨fun tag addr s h => ⟨fun hno => ?_, fun p hp hconf => ⟨fun hbad => ?_, fun hlost hrel => ?_⟩⟩,
    fun s p on request => ?_, fun s => ⟨rfl, activatePending_of_none, fun n hn => ⟨fun hlt => ?_, fun hle => ?_⟩⟩⟩
  · refine request_refused (r := .releaseHeat addr) h ?_
    change processReleaseHeat addr _ = _
    unfold processReleaseHeat
    cases hp : posOf addr with
    | none => rfl
    | some p => exact if_pos (by rw [show (s.heard (.releaseHeat addr) tag).configured p = false from hno p hp]; rfl)
  · refine request_refused (r := .releaseHeat addr) h ?_
    change processReleaseHeat addr _ = _
    unfold processReleaseHeat
    rw [hp]
    refine (if_neg (by
      rw [show (s.heard (.releaseHeat addr) tag).configured p = true from hconf]
      exact Bool.false_ne_true)).trans (if_neg ?_)
    exact fun hboth => hbad.elim (fun hne => hne hboth.1) fun hne => hne hboth.2
  · have hstate : endGrant p s.fresh = { ended s p with trail := [] } := rfl
    refine ⟨_, exec_releaseHeat h hp hconf hlost hrel, by rw [hstate], fun hout => ?_, fun hnone hempty horder => ?_⟩
    · have hnot : p ∉ (endGrant p s.fresh).heat.queue := fun hmem => hout (List.mem_of_mem_erase hmem)
      obtain ⟨hvol, -⟩ := committedFell_idle hnot
      have hended : (endGrant p s.fresh).vol p = (s.vol p).ended .none (s.vol p).orders := vol_grantEnded p _ s.fresh
      have : (State.replied (committedFell (endGrant p s.fresh)) 0x41#8 tag []).vol p
          = (s.vol p).ended .none (s.vol p).orders := hvol.trans hended
      rw [this]
      exact ⟨rfl, rfl⟩
    · have hsame : committedFell (endGrant p s.fresh) = endGrant p s.fresh := by
        rw [committedFell, activatePending_of_none (s := endGrant p s.fresh) hnone]
        exact evaluate_of_empty (by
          change s.heat.queue.erase p = []
          rw [hempty]
          rfl)
      have hheat : ({ s.heat with queue := s.heat.queue.erase p, order := s.heat.order.erase p } : HeatState)
          = s.heat := by
        rw [List.erase_of_not_mem horder, hempty]
        exact congrArg (fun q => ({ s.heat with queue := q } : HeatState)) hempty.symm
      rw [hsame]
      refine ⟨?_, ?_⟩
      · rw [hstate]
        exact congrArg (fun k => State.replied { s with
          trail := []
          pos := s.pos.set p.val { s.vol p with grant := .none, slice := none, changed := true }
          heat := k } 0x41#8 tag []) hheat
      · have := committed_endGrant (s := s.fresh) (p := p) hrel
        rw [committed_fresh] at this
        exact this
  · intro u asked hg hout
    refine ⟨fun hstays => heatTakesState_stays hg hstays, fun hon hoff => ?_⟩
    subst hon
    intro w again
    exact heatTakesState_ends hg hout hoff
  · have hsame : activatePending s = s := (activatePending_of_some hn).trans (if_neg (Nat.not_le.mpr hlt))
    refine ⟨hsame, ?_⟩
    rw [committedFell, hsame, evaluate_of_pending (by rw [hn]; exact fun e => nomatch e)]
  · exact (activatePending_of_some hn).trans (if_pos hle)

end Sys2Proof.Machine
end

section
/-! Sessions that are cancelled, that lose an extension, that go to ENDING or that close (R68, R69, R102, R110, R114,
R115, R117 to R119). -/

namespace Sys2Proof.Machine

variable {s t u : State} {p q : PosIx} {ses : Session}

/-! ## Steps that change only queues, grants and budgets -/

theorem grantStep_serveOwed (p : PosIx) (s : State) : GrantStep s (serveOwed p s) := by
  unfold serveOwed
  split
  · rfl
  · exact .refl s

theorem grantStep_letGo (isOwn : OrderBody → Bool) (p : PosIx) (s : State) : GrantStep s (letGo isOwn p s) := by
  unfold letGo
  dsimp only
  split
  · exact GrantStep.trans (t := s.setVol p _) rfl (grantStep_serveOwed p _)
  · rfl

theorem grantStep_markChanged (p : PosIx) (s : State) : GrantStep s (s.markChanged p) := rfl

theorem grantStep_appendOrder (p : PosIx) (o : Order) (s : State) : GrantStep s (appendOrder p o s) := rfl

theorem RoomStep.faults (h : RoomStep s t) : t.ret.faults = s.ret.faults := by
  unfold RoomStep at h
  rw [h]

/-! ## Orders that are let go -/

/-- What a session lets go leaves no order of its own behind, but one in delivery without an owner (R102, R114). -/
theorem owned_letGo {isOwn : OrderBody → Bool} (hd : isOwn .disable = false ∧ isOwn .enable = false) (p : PosIx)
    (s : State) : ∀ o ∈ ((letGo isOwn p s).vol p).orders, isOwn o.body = true → o.owned = false := by
  have freed : ∀ o ∈ ((s.vol p).orders.filter fun o => !(o.undelivered && isOwn o.body && o.owned)).map fun o =>
      if isOwn o.body then { o with owned := false } else o, isOwn o.body = true → o.owned = false := by
    intro o ho hown
    obtain ⟨x, -, rfl⟩ := List.mem_map.mp ho
    split
    · rfl
    · next h => rw [if_neg h] at hown; exact absurd hown h
  unfold letGo
  dsimp only
  split
  · unfold serveOwed
    split
    · intro o ho hown
      unfold askDisplay at ho
      dsimp only at ho
      rw [State.vol_setVol, if_pos rfl] at ho
      rcases mem_queueDisplay ho with h | rfl
      · rw [State.vol_setVol, if_pos rfl] at h
        exact freed o h hown
      · change isOwn (if _ then OrderBody.disable else .enable) = true at hown
        split at hown
        · rw [hd.1] at hown; exact nomatch hown
        · rw [hd.2] at hown; exact nomatch hown
    · rw [State.vol_setVol, if_pos rfl]
      exact freed
  · rw [State.vol_setVol, if_pos rfl]
    exact freed

/-- A START or EXTEND without an owner stays so. -/
theorem Kept.unowned (h : Kept p s t) {f : OrderBody → Bool} (hf : ∀ b, f b = true → b.ownable = true)
    (hs : ∀ o ∈ (s.vol p).orders, f o.body = true → o.owned = false) :
    ∀ o ∈ (t.vol p).orders, f o.body = true → o.owned = false := by
  intro o ho hb
  by_contra hown
  have hown : o.owned = true := by simpa using hown
  rw [hs o ((h.pos p).owned o ho hown (hf _ hb)) hb] at hown
  exact nomatch hown

theorem ownable_of_start (b : OrderBody) (h : b.isStart = true) : b.ownable = true := by
  rw [OrderBody.ownable, h]
  rfl

theorem ownable_of_extend (b : OrderBody) (h : b.isExtend = true) : b.ownable = true := by
  rw [OrderBody.ownable, h, Bool.or_true]

/-! ## Cards and answers -/

theorem available_congr {id : CardId} (h : t.card id = s.card id) : t.available id = s.available id := by
  rw [State.available, h]
  rfl

theorem mem_placeAnswer_self {i : Item} {box : List Item} (h : box.length < 4) : i ∈ placeAnswer i box := by
  unfold placeAnswer
  dsimp only
  rw [if_pos (show box.length < Config.outboxCapacity from h), if_pos (show box.length < Config.outboxCapacity from h)]
  exact List.mem_append_right _ List.mem_cons_self

/-- A DECLINE stands in the outbox where it was sent before the other steps of an operation ended (R52, R58). -/
theorem declined_of_sent {x : TermIx} {tag : Byte} {reason : DeclineReason} {id : CardId} (hterm : u.term = s.term)
    (hconf : u.ret.terminals = s.ret.terminals)
    (hrest : ∀ y, ∀ i ∈ ((sendDecline x tag reason id u).terminal y).outbox, i.waitingText = false →
      i ∈ (t.terminal y).outbox)
    (hcard : t.card id = u.card id) : Declined s t x tag reason id := by
  intro hadm hlen
  have hadm' : u.admitsAnswer x tag = true := by
    rw [← hadm, State.admitsAnswer, State.admitsAnswer, State.termConfigured, State.termConfigured, State.terminal,
      State.terminal, hterm, hconf]
  have hsent : sendDecline x tag reason id u = queueAnswer x (declineAnswer tag reason (u.available id)) false u :=
    if_pos hadm'
  rw [hsent] at hrest
  rw [available_congr hcard]
  refine hrest x _ ?_ rfl
  unfold queueAnswer
  rw [State.terminal_setTerm, if_pos rfl]
  refine mem_placeAnswer_self ?_
  rw [State.terminal, hterm]
  exact hlen

theorem State.ret_markChanged (p : PosIx) (s : State) : (s.markChanged p).ret = s.ret := rfl

theorem cards_sendDecline (x : TermIx) (tag : Byte) (reason : DeclineReason) (id : CardId) (s : State) :
    (sendDecline x tag reason id s).ret = s.ret := by
  unfold sendDecline sendAnswer
  split <;> rfl

/-- A hold operation changes the record it names (R66, R70). -/
theorem cardTook_journalled (id : CardId) (f : Card → Card) (hf : ∀ c, (f c).id = c.id) (settlement : Option Settlement)
    (part : SessionPart) (s : State) : CardTook s (journalled (holdEntry id f settlement part s) s) id f := by
  have hcards : (journalled (holdEntry id f settlement part s) s).ret.cards = (cardPart id f s).cards s.ret.cards := by
    rw [journalled_ret, applyEntry_eq]
    rfl
  unfold CardTook State.card
  rw [hcards]
  unfold cardPart
  cases hc : s.card id with
  | none =>
    unfold State.card at hc
    rw [hc]
    exact ⟨hc, fun _ _ => rfl⟩
  | some c =>
    have hid : (f c).id = id := (hf c).trans (card_id hc)
    unfold State.card at hc
    rw [hc]
    refine ⟨(find_putCard _ _ _).trans (if_pos hid), fun j hj => (find_putCard _ _ _).trans (if_neg ?_)⟩
    rw [hid]
    exact fun e => hj e.symm

theorem CardTook.of_cards {id : CardId} {f : Card → Card} (h : CardTook u t id f) {v w : State}
    (hu : v.ret.cards = u.ret.cards) (ht : w.ret.cards = t.ret.cards) : CardTook v w id f := by
  unfold CardTook State.card at *
  rw [hu, ht]
  exact h

/-! ## A cancellation -/

/-- The state behind the hold operation of a cancellation (R68, R102). -/
def State.unheld (s : State) (p : PosIx) (ses : Session) : State :=
  lowerHold ses.cardId ses.hold (.removal p) (letGo OrderBody.isStart p s)

theorem cancelSession_eq (hs : s.session p = some ses) (reason : DeclineReason) : cancelSession p reason s
    = (sendDecline ses.term ses.reqTag reason ses.cardId (committedFell (s.unheld p ses))).markChanged p := by
  unfold cancelSession
  rw [hs]
  rfl

theorem journalled_term (e : JournalEntry) (s : State) : (journalled e s).term = s.term := by rw [journalled_eq]

theorem journalled_terminals (e : JournalEntry) (s : State) :
    (journalled e s).ret.terminals = s.ret.terminals := by rw [journalled_ret, applyEntry_eq]

theorem changed_markChanged (p : PosIx) (s : State) : ((s.markChanged p).vol p).changed = true := by
  rw [State.markChanged, State.vol_setVol, if_pos rfl]

/-- A STARTING session that is cancelled (R68, R102). -/
theorem cancelSession_spec (hs : s.session p = some ses) (reason : DeclineReason) :
    SessionCancelled s (cancelSession p reason s) p ses
    ∧ Declined s (cancelSession p reason s) ses.term ses.reqTag reason ses.cardId
    ∧ ∀ o ∈ ((cancelSession p reason s).vol p).orders, o.body.isStart = true → o.owned = false := by
  have stirred := stirred_cancelSession (p := p) reason s
  have hgo := grantStep_letGo OrderBody.isStart p s
  have hfell := grantStep_committedFell (s.unheld p ses)
  have hret : (cancelSession p reason s).ret = (committedFell (s.unheld p ses)).ret := by
    rw [cancelSession_eq hs]
    exact (State.ret_markChanged p _).trans (cards_sendDecline ..)
  have hcards : (cancelSession p reason s).ret.cards = (s.unheld p ses).ret.cards := by rw [hret, hfell.cards]
  have hsession : (cancelSession p reason s).session p = (s.unheld p ses).session p := by
    rw [State.session, hret]
    exact hfell.session p
  have hgone : (s.unheld p ses).session p = none := by
    rw [State.unheld, lowerHold, session_journalled]
    simp [SessionPart.sessions]
  refine ⟨⟨⟨hsession.trans hgone, stirred.sessions, ?_⟩, stirred.settlements.1, stirred.settlements.2,
    stirred.room.faults, ?_⟩, ?_, ?_⟩
  · rw [cancelSession_eq hs]
    exact changed_markChanged p _
  · exact (cardTook_journalled ses.cardId (fun c => { c with held := c.held - ses.hold }) (fun _ => rfl) none
      (.removal p) (letGo OrderBody.isStart p s)).of_cards hgo.cards.symm hcards
  · refine declined_of_sent (u := committedFell (s.unheld p ses)) ?_ ?_ ?_ ?_
    · rw [hfell.term, State.unheld, lowerHold, journalled_term, hgo.term]
    · rw [hfell.terminals, State.unheld, lowerHold, journalled_terminals, hgo.terminals]
    · rw [cancelSession_eq hs]
      exact (told_markChanged p _).answers
    · rw [State.card, hret]
      rfl
  · have kept : Kept p (letGo OrderBody.isStart p s) (cancelSession p reason s) := by
      rw [cancelSession_eq hs]
      exact (((Kept.of_same p (by rw [State.unheld, lowerHold, journalled_eq])
        (by rw [State.unheld, lowerHold, journalled_eq])).trans (told_committedFell p _).kept).trans
        (stirred_sendDecline ..).kept).trans (told_markChanged p _).kept
    exact kept.unowned ownable_of_start (owned_letGo ⟨rfl, rfl⟩ p s)

/-! ## A session that goes to ENDING -/

/-- A dryer session in ENDING (R110). -/
def Session.toEnding (ses : Session) (limit : Nat) : Session :=
  { ses with state := .ending, holding := false, pauseLimit := none, doneLimit := some (limit * 60) }

/-- The session set to ENDING, its END in the queue where there is room (R36, R110). -/
def State.endAsked (s : State) (p : PosIx) : State :=
  let u := s.setSession p fun o => o.map fun ses => ses.toEnding s.ret.config.doneLimit
  if u.queueHasRoom p then appendOrder p (newOrder .finish) u else u

theorem goEnding_eq (p : PosIx) (s : State) : goEnding p s = (withdraw p (s.endAsked p)).markChanged p := rfl

theorem grantStep_endAsked (p : PosIx) (s : State) :
    GrantStep (s.setSession p fun o => o.map fun ses => ses.toEnding s.ret.config.doneLimit) (s.endAsked p) := by
  unfold State.endAsked
  dsimp only
  split <;> rfl

theorem session_endAsked (hs : s.session p = some ses) :
    (s.endAsked p).session p = some (ses.toEnding s.ret.config.doneLimit) := by
  rw [(grantStep_endAsked p s).session, State.session_setSession, if_pos rfl, hs]
  rfl

theorem quiet_endAsked (hs : s.session p = some ses) (hext : ses.ext = none) : (s.endAsked p).Quiet p := by
  intro x hx
  rw [session_endAsked hs] at hx
  obtain rfl := Option.some.inj hx
  exact ⟨(nomatch ·), hext⟩

/-- A session without an open extension goes to ENDING, and no report reaches it (R110). -/
theorem grantStep_goEnding (hs : s.session p = some ses) (hext : ses.ext = none) :
    GrantStep (s.setSession p fun o => o.map fun ses => ses.toEnding s.ret.config.doneLimit) (goEnding p s) :=
  ((grantStep_endAsked p s).trans ((told_withdraw p _).calm (quiet_endAsked hs hext))).trans
    (grantStep_markChanged p _)

theorem session_goEnding (hs : s.session p = some ses) (hext : ses.ext = none) :
    (goEnding p s).session p = some (ses.toEnding s.ret.config.doneLimit) := by
  rw [(grantStep_goEnding hs hext).session, State.session_setSession, if_pos rfl, hs]
  rfl

/-! ## An extension that fails -/

/-- A session whose extension is gone (R114). -/
def Session.unextended (ses : Session) (e : Extension) : Session := { ses with ext := none, hold := ses.hold - e.hold }

/-- The state behind the DECLINE of an extension that fails (R114). -/
def State.extensionDeclined (s : State) (p : PosIx) (ses : Session) (e : Extension) (reason : DeclineReason) : State :=
  sendDecline e.term e.reqTag reason ses.cardId
    (lowerHold ses.cardId e.hold (.record p (ses.unextended e)) (letGo OrderBody.isExtend p s))

theorem extensionFail_eq {e : Extension} (hs : s.session p = some ses) (hext : ses.ext = some e)
    (reason : DeclineReason) : extensionFail p reason s
      = if ses.holding then goEnding p (s.extensionDeclined p ses e reason) else s.extensionDeclined p ses e reason := by
  unfold extensionFail extensionFailWith
  rw [hs]
  dsimp only
  rw [hext]
  rfl

/-- An open extension that fails (R114). -/
theorem extensionFail_spec {e : Extension} (hs : s.session p = some ses) (hext : ses.ext = some e)
    (reason : DeclineReason) :
    let t := extensionFail p reason s
    t.session p = some (if ses.holding then (ses.unextended e).toEnding s.ret.config.doneLimit else ses.unextended e)
    ∧ CardTook s t ses.cardId (fun c => { c with held := c.held - e.hold })
    ∧ Declined s t e.term e.reqTag reason ses.cardId
    ∧ ∀ o ∈ (t.vol p).orders, o.body.isExtend = true → o.owned = false := by
  have hgo := grantStep_letGo OrderBody.isExtend p s
  let low := lowerHold ses.cardId e.hold (.record p (ses.unextended e)) (letGo OrderBody.isExtend p s)
  have hret : (s.extensionDeclined p ses e reason).ret = low.ret := cards_sendDecline ..
  have hsession : (s.extensionDeclined p ses e reason).session p = some (ses.unextended e) := by
    rw [State.session, hret]
    change low.session p = _
    rw [show low = journalled _ _ from rfl, session_journalled]
    simp [SessionPart.sessions]
  have hconfig : (s.extensionDeclined p ses e reason).ret.config = s.ret.config := by
    rw [hret, show low.ret = _ from journalled_ret _ _, applyEntry_eq]
    exact hgo.config
  have rest : Stirred p (s.extensionDeclined p ses e reason) (extensionFail p reason s)
      ∧ (extensionFail p reason s).ret.cards = low.ret.cards
      ∧ (extensionFail p reason s).session p = some (if ses.holding
          then (ses.unextended e).toEnding s.ret.config.doneLimit else ses.unextended e) := by
    rw [extensionFail_eq hs hext]
    by_cases hh : ses.holding = true
    · rw [if_pos hh, if_pos hh]
      refine ⟨stirred_goEnding p _, ?_, ?_⟩
      · rw [(grantStep_goEnding hsession rfl).cards, ← hret]
        rfl
      · rw [session_goEnding hsession rfl, hconfig]
    · rw [if_neg hh, if_neg hh]
      exact ⟨.refl p _, by rw [hret], hsession⟩
  obtain ⟨hrest, hcards, hses⟩ := rest
  refine ⟨hses, ?_, ?_, ?_⟩
  · exact (cardTook_journalled ses.cardId (fun c => { c with held := c.held - e.hold }) (fun _ => rfl) none
      (.record p (ses.unextended e)) (letGo OrderBody.isExtend p s)).of_cards hgo.cards.symm hcards
  · refine declined_of_sent (u := low) ?_ ?_ hrest.answers ?_
    · rw [show low = journalled _ _ from rfl, journalled_term, hgo.term]
    · rw [show low = journalled _ _ from rfl, journalled_terminals, hgo.terminals]
    · rw [State.card, hcards]
      rfl
  · have kept : Kept p (letGo OrderBody.isExtend p s) (extensionFail p reason s) :=
      ((Kept.of_same p (by rw [show low = journalled _ _ from rfl, journalled_eq])
        (by rw [show low = journalled _ _ from rfl, journalled_eq])).trans
        (stirred_sendDecline e.term e.reqTag reason ses.cardId low).kept).trans hrest.kept
    exact kept.unowned ownable_of_extend (owned_letGo ⟨rfl, rfl⟩ p s)

/-! ## A close -/

/-- The state behind the capture of a close (R69, R119). -/
def State.captured (s : State) (p : PosIx) (ses : Session) (e : Ending) : State :=
  capture p ses (ses.charge e.reason e.policy) (ses.settlement p e s.ret.nextSettlement) (letGo OrderBody.isExtend p s)

/-- The state behind the withdrawal of a close (R119). -/
def State.closed (s : State) (p : PosIx) (ses : Session) (e : Ending) : State :=
  withdraw p (committedFell (s.captured p ses e))

/-- The answer to the extension that a close leaves open (R115). -/
def State.extensionAnswered (s : State) (ses : Session) : State :=
  match ses.ext with
  | none => s
  | some x => sendDecline x.term x.reqTag .machineFault ses.cardId s

theorem closeSession_eq (hs : s.session p = some ses) (e : Ending) : closeSession p e s
    = (let t := ((s.closed p ses e).extensionAnswered ses).markChanged p
       if e.windsDown then t.setVol p fun v => { v with windDown := true } else t) := by
  have hnumber : (letGo OrderBody.isExtend p s).ret.nextSettlement = s.ret.nextSettlement :=
    (grantStep_letGo OrderBody.isExtend p s).settlements.2
  unfold closeSession
  rw [hs]
  dsimp only
  rw [hnumber]
  rfl

theorem stirred_extensionAnswered (ses : Session) (s : State) : Stirred p s (s.extensionAnswered ses) := by
  unfold State.extensionAnswered
  split
  · exact .refl p s
  · exact stirred_sendDecline ..

theorem ret_extensionAnswered (ses : Session) (s : State) : (s.extensionAnswered ses).ret = s.ret := by
  unfold State.extensionAnswered
  split
  · rfl
  · exact cards_sendDecline ..

theorem pos_extensionAnswered (ses : Session) (s : State) :
    (s.extensionAnswered ses).pos = s.pos ∧ (s.extensionAnswered ses).heat = s.heat := by
  unfold State.extensionAnswered sendDecline sendAnswer
  split
  · exact ⟨rfl, rfl⟩
  · split <;> exact ⟨rfl, rfl⟩

theorem capture_eq (s : State) (ses : Session) (p : PosIx) (e : Ending) : s.captured p ses e
    = journalled (holdEntry ses.cardId (fun c => c.captured ses.hold (ses.charge e.reason e.policy))
        (some (ses.settlement p e s.ret.nextSettlement)) (.removal p) (letGo OrderBody.isExtend p s))
        (letGo OrderBody.isExtend p s) := rfl

theorem session_captured (s : State) (ses : Session) (p q : PosIx) (e : Ending) :
    (s.captured p ses e).session q = if q = p then none else s.session q := by
  have hgo := (grantStep_letGo OrderBody.isExtend p s).session q
  rw [capture_eq, session_journalled]
  split
  · next h =>
    subst h
    simp [holdEntry, SessionPart.sessions]
  · next h => exact (session_set _ h).trans hgo

theorem quiet_captured (s : State) (ses : Session) (p : PosIx) (e : Ending) : (s.captured p ses e).Quiet p :=
  State.quiet_of_none (by rw [session_captured, if_pos rfl])

/-- Behind the capture only queues, grants and budgets change (R119). -/
theorem grantStep_closed (s : State) (ses : Session) (p : PosIx) (e : Ending) :
    GrantStep (s.captured p ses e) (s.closed p ses e) := by
  have hfell := grantStep_committedFell (s.captured p ses e)
  exact hfell.trans ((told_withdraw p _).calm (hfell.quiet (quiet_captured s ses p e)))

theorem kept_captured (s : State) (ses : Session) (p : PosIx) (e : Ending) : Kept p s (s.captured p ses e) :=
  (told_letGo OrderBody.isExtend ⟨rfl, rfl⟩ p s).kept.trans
    (.of_same p (by rw [capture_eq, journalled_eq]) (by rw [capture_eq, journalled_eq]))

theorem kept_closed (s : State) (ses : Session) (p : PosIx) (e : Ending) :
    Kept p (s.captured p ses e) (s.closed p ses e) :=
  (told_committedFell p _).kept.trans (told_withdraw p _).kept

/-- The store after a close is that of its capture, but for the budgets. -/
theorem ret_closeSession (hs : s.session p = some ses) (e : Ending) :
    (closeSession p e s).ret = (s.closed p ses e).ret := by
  rw [closeSession_eq hs]
  dsimp only
  split <;> exact ret_extensionAnswered ses _

/-- What a close leaves of its position, from its withdrawal on (R119 steps 6 to 8). -/
theorem vol_closeSession (hs : s.session p = some ses) (e : Ending) :
    (closeSession p e s).vol p = { (s.closed p ses e).vol p with
      changed := true, windDown := e.windsDown || ((s.closed p ses e).vol p).windDown } := by
  have hpos : ((s.closed p ses e).extensionAnswered ses).vol p = (s.closed p ses e).vol p := by
    rw [State.vol, (pos_extensionAnswered ses _).1]
    rfl
  rw [closeSession_eq hs]
  dsimp only
  split
  · next h => rw [State.vol_setVol, if_pos rfl, State.markChanged, State.vol_setVol, if_pos rfl, hpos, h]; rfl
  · next h => rw [State.markChanged, State.vol_setVol, if_pos rfl, hpos, Bool.eq_false_iff.mpr h]; rfl

theorem heat_closeSession (hs : s.session p = some ses) (e : Ending) :
    (closeSession p e s).heat = (s.closed p ses e).heat := by
  rw [closeSession_eq hs]
  dsimp only
  split <;> exact (pos_extensionAnswered ses _).2

theorem room_setWindDown (p : PosIx) (b : Bool) (s : State) :
    RoomStep s (s.setVol p fun v => { v with windDown := b }) := rfl

theorem room_closeSession (e : Ending) (s : State) : RoomStep s (closeSession p e s) := by
  cases hs : s.session p with
  | none =>
    unfold closeSession
    rw [hs]
    exact .refl s
  | some ses =>
    have hclosed : RoomStep s (s.closed p ses e) := ((grantStep_letGo OrderBody.isExtend p s).room.trans
      (room_journalled _ _)).trans (grantStep_closed s ses p e).room
    have hmarked : RoomStep s (((s.closed p ses e).extensionAnswered ses).markChanged p) :=
      (hclosed.trans (stirred_extensionAnswered (p := p) ses _).room).trans (grantStep_markChanged p _).room
    rw [closeSession_eq hs]
    dsimp only
    split
    · exact hmarked.trans (room_setWindDown p true _)
    · exact hmarked

theorem windDown_of_marks {v w : PosState} (h : w.marks = v.marks) : w.windDown = v.windDown :=
  (congrArg PosState.windDown h :)

/-- A close, with the answer to an open extension (R69, R115, R119). -/
theorem closeSession_spec (hs : s.session p = some ses) (hfree : NumberFree s) (e : Ending) :
    let t := closeSession p e s
    SessionClosed s t p ses (ses.charge e.reason e.policy) e.reason e.code
    ∧ (∀ x, ses.ext = some x → Declined s t x.term x.reqTag .machineFault ses.cardId)
    ∧ (t.vol p).windDown = (e.windsDown || (s.vol p).windDown) := by
  intro t
  have hret : t.ret = (s.closed p ses e).ret := ret_closeSession hs e
  have hgo := grantStep_letGo OrderBody.isExtend p s
  have hclosed := grantStep_closed s ses p e
  have hses : ∀ q, t.session q = if q = p then none else s.session q := fun q => by
    rw [State.session, hret]
    exact (hclosed.session q).trans (session_captured s ses p q e)
  have hvol : t.vol p = _ := vol_closeSession hs e
  have hcaptured : (s.captured p ses e).ret = _ := journalled_ret _ (letGo OrderBody.isExtend p s)
  rw [applyEntry_eq] at hcaptured
  have hnew : settlementNew (some (ses.settlement p e s.ret.nextSettlement))
      (letGo OrderBody.isExtend p s).ret.settlements = true := by
    rw [hgo.settlements.1]
    cases hlast : s.ret.settlements.getLast? with
    | none => simp [settlementNew, hlast]
    | some x =>
      have hne := hfree x hlast
      simpa [settlementNew, hlast, Session.settlement] using hne
  refine ⟨⟨⟨?_, fun q hq => ?_, ?_⟩, ⟨?_, ?_⟩, ?_⟩, fun x hx => ?_, ?_⟩
  · rw [hses, if_pos rfl]
  · rw [hses, if_neg hq]
  · rw [hvol]
  · rw [hret, hclosed.settlements.1, hcaptured]
    change settlementsAfter (some _) _ = _
    rw [settlementsAfter, if_pos hnew, hgo.settlements.1]
    rfl
  · rw [hret, hclosed.settlements.2, hcaptured]
    change numberAfter (some _) _ _ = _
    rw [numberAfter, if_pos hnew]
    rfl
  · exact (cardTook_journalled ses.cardId (fun c => c.captured ses.hold (ses.charge e.reason e.policy)) (fun _ => rfl)
      (some (ses.settlement p e s.ret.nextSettlement)) (.removal p) (letGo OrderBody.isExtend p s)).of_cards
      hgo.cards.symm (by rw [hret, hclosed.cards]; rfl)
  · refine declined_of_sent (u := s.closed p ses e) ?_ ?_ ?_ ?_
    · rw [hclosed.term, capture_eq, journalled_term, hgo.term]
    · rw [hclosed.terminals, capture_eq, journalled_terminals, hgo.terminals]
    · have hanswered : (s.closed p ses e).extensionAnswered ses
          = sendDecline x.term x.reqTag .machineFault ses.cardId (s.closed p ses e) := by
        rw [State.extensionAnswered, hx]
      rw [← hanswered]
      change ∀ y, ∀ i ∈ _, _ → i ∈ ((closeSession p e s).terminal y).outbox
      rw [closeSession_eq hs]
      dsimp only
      split <;> exact fun _ _ hi _ => hi
    · rw [State.card, hret]
      rfl
  · rw [hvol]
    exact congrArg (e.windsDown || ·) ((windDown_of_marks ((kept_closed s ses p e).pos p).marks).trans
      (windDown_of_marks ((kept_captured s ses p e).pos p).marks))

/-! ## The grant behind the end of a session -/

/-- The grant that a withdrawal leaves where no heat is asked for again is NONE or RELEASING (R128, R129). -/
theorem withdraw_ends (hs : HeatCore s) (hq : QueueLaw (s.vol p).orders)
    (h : ¬ ((s.vol p).heatRequest = true ∧ s.sessionIs p .running = true ∧ 0 < s.heaterDemand p)) :
    (((withdraw p s).vol p).grant = .none ∨ ((withdraw p s).vol p).grant = .releasing)
      ∧ ((s.vol p).grant = .queued → ((withdraw p s).vol p).grant = .none)
      ∧ p ∉ (withdraw p s).heat.queue := by
  cases hg : (s.vol p).grant with
  | none =>
    rw [withdraw_of_ended (.inl hg)]
    exact ⟨.inl hg, (nomatch ·), hs.not_mem_queue (by rw [hg]; exact fun e => nomatch e)⟩
  | releasing =>
    rw [withdraw_of_ended (.inr hg)]
    exact ⟨.inr hg, (nomatch ·), hs.not_mem_queue (by rw [hg]; exact fun e => nomatch e)⟩
  | queued =>
    have hout : p ∉ (endGrant p s).heat.queue := fun hmem => ((hs.queue_nodup.mem_erase_iff).mp hmem).1 rfl
    obtain ⟨hvol, hnot⟩ := evaluate_idle hout
    rw [withdraw_of_queued hg, hvol, grant_endGrant]
    exact ⟨.inl rfl, fun _ => rfl, hnot⟩
  | granted =>
    by_cases hon : ∃ o ∈ (s.vol p).orders, o.tag = none ∧ o.body = .heatOn
    · obtain ⟨hgrant, -, hnot⟩ := withdraw_absorbed_none hs hg hon h
      exact ⟨.inl hgrant, (nomatch ·), hnot⟩
    · obtain ⟨hr, -, -⟩ := withdraw_releasing hs hq hg fun o ho htag hbody => hon ⟨o, ho, htag, hbody⟩
      exact ⟨.inr hr.grant, (nomatch ·), hr.idle⟩

theorem heatCore_of_law (h : HeatLaw s) : HeatCore s := (heatLaw_iff.mp h).1

theorem not_running_of_none (h : s.session p = none) : s.sessionIs p .running = false := by
  rw [State.sessionIs, h]
  rfl

/-- Behind a close the grant is NONE or RELEASING (R119, R129). -/
theorem grant_closed (hs : s.session p = some ses) (hl : HeatLaw s) (hq : QueueLaw (s.vol p).orders) (e : Ending) :
    ((s.closed p ses e).vol p).grant ≠ .granted ∧ p ∉ (s.closed p ses e).heat.queue := by
  have hmoves : Moves s (committedFell (s.captured p ses e)) := committedFell_moves
    ((letGo_moves OrderBody.isExtend p .refl).tail (.close p ses _ _ _ _ (by rw [letGo_session, hs]) fun _ => rfl))
  have hnone : (committedFell (s.captured p ses e)).session p = none := by
    rw [(grantStep_committedFell _).session, session_captured, if_pos rfl]
  obtain ⟨hgrant, -, hnot⟩ := withdraw_ends (heatCore_of_law (heatLaw_moves hl hmoves)) (queueLaw_moves hmoves hq)
    fun h => by rw [not_running_of_none hnone] at h; exact nomatch h.2.1
  refine ⟨fun hg => ?_, hnot⟩
  rcases hgrant with h | h
  · rw [State.closed, h] at hg; exact nomatch hg
  · rw [State.closed, h] at hg; exact nomatch hg

/-! ## HALT -/

/-- A HALT that is asked for stands in the queue (R37, R40). -/
theorem haltStands_askUrgentFor {wd : PosIx → State → State} (hw : ∀ s, Told p s (wd p s))
    (hm : ∀ p {s₀ s : State}, Moves s₀ s → Moves s₀ (wd p s)) (k : Nat) : ∀ {s : State}, QueueLaw (s.vol p).orders →
    ((askUrgentFor wd .halt p k s).vol p).haltStands = true := by
  have placed : ∀ (n : UrgentStep) (s : State), (∃ o ∈ n.orders, o.body = .halt) →
      ((makeStep wd p n s).vol p).haltStands = true := fun n s h =>
    haltStands_iff.mpr (((told_afterRemoval hw _ _).kept.pos p).stands .halt (.inl rfl) (stands_setOrders h))
  induction k with
  | zero => exact fun {s} hq => placed _ s (stands_placeAtOnce (u := .halt) hq)
  | succ k ih =>
    intro s hq
    have hlaw := queueLaw_moves (p := p) (makeStep_moves wd hm p (Urgent.halt.step (s.vol p).orders)
      (QueueLaw.step _) (s := s) Relation.ReflTransGen.refl) hq
    rcases Urgent.halt.step_cases (s.vol p).orders with ⟨before, o, after, -, -, -, he⟩
      | ⟨-, ⟨hmerge, he⟩ | ⟨-, -, he⟩ | ⟨hmerge, hfull, he⟩⟩
    · rw [askUrgentFor_next _ _ _ _ _ (by rw [he]; rfl)]
      exact ih hlaw
    · rw [askUrgentFor_last _ _ _ _ _ (by rw [he]), he]
      exact placed _ s (exists_of_merges (u := .halt) hmerge)
    · rw [askUrgentFor_last _ _ _ _ _ (by rw [he]), he]
      exact placed _ s ⟨newOrder .halt, mem_place (u := .halt).mpr (.inl rfl), rfl⟩
    · rw [askUrgentFor_next _ _ _ _ _ (by rw [he, exists_displaceable hq hfull hmerge]; rfl)]
      exact ih hlaw

theorem haltStands_askHalt (hq : QueueLaw (s.vol p).orders) : ((askHalt p s).vol p).haltStands = true :=
  haltStands_askUrgentFor (told_withdraw p) (fun p {_ _} h => withdraw_moves p h) _ hq

/-! ## The start and extension limits -/

theorem exec_startLimitExpiry (hl : s.live = true) (hs : s.session p = some ses) : exec (.startLimitExpiry p) s
    = .next (if ses.state = .starting ∧ ses.startLimit = some 0
        then cancelSession p .machineNoResponse s.fresh else s.fresh) := by
  change execStartLimitExpiry p s = _
  rw [execStartLimitExpiry, taking_of_live _ hl]
  refine congrArg Host.Outcome.next (if_congr ?_ rfl rfl)
  rw [show s.fresh.session p = some ses from hs, Option.any_some, Bool.and_eq_true, beq_iff_eq, ranOut, beq_iff_eq]

theorem exec_extensionLimitExpiry (hl : s.live = true) (hs : s.session p = some ses) :
    exec (.extensionLimitExpiry p) s = .next (if ses.ext.any (fun e => ranOut e.limit) = true
      then extensionFail p .machineNoResponse s.fresh else s.fresh) := by
  change execExtensionLimitExpiry p s = _
  rw [execExtensionLimitExpiry, taking_of_live _ hl]
  refine congrArg Host.Outcome.next (if_congr ?_ rfl rfl)
  rw [show s.fresh.session p = some ses from hs, Option.any_some]

/-- Settles O42. -/
theorem startAndExtensionLimits : Obligations.StartAndExtensionLimits := by
  unfold Obligations.StartAndExtensionLimits
  refine fun s p ses hl hs => ⟨fun hst hlim => ?_, ?_, fun hno => ?_, fun hno => ?_⟩
  · obtain ⟨hcancelled, hdeclined, howned⟩ := cancelSession_spec (s := s.fresh) hs .machineNoResponse
    exact ⟨_, (exec_startLimitExpiry hl hs).trans (congrArg _ (if_pos ⟨hst, hlim⟩)), hcancelled,
      (stirred_cancelSession (p := p) _ s.fresh).room, hdeclined, howned⟩
  · intro e _ hext hlim left
    obtain ⟨hsession, hcard, hdeclined, howned⟩ := extensionFail_spec (s := s.fresh) hs hext .machineNoResponse
    have told := told_extensionFail p .machineNoResponse s.fresh
    exact ⟨_, (exec_extensionLimitExpiry hl hs).trans (congrArg _
      (if_pos (by rw [hext, Option.any_some, ranOut, hlim]; rfl))),
      hsession, told.sessions, hcard, told.settlements.1, told.room, hdeclined, howned⟩
  · refine (exec_startLimitExpiry hl hs).trans (congrArg _ (if_neg ?_))
    rintro ⟨h1, h2⟩
    exact hno.elim (fun h => h h1) fun h => h h2
  · refine (exec_extensionLimitExpiry hl hs).trans (congrArg _ (if_neg ?_))
    rw [Option.any_eq_true]
    rintro ⟨e, he, hran⟩
    exact hno e he (by simpa [ranOut] using hran)

end Sys2Proof.Machine
end

section
/-! FORCE END (R117), the meter (R107, R110), and the pause and done limits (R109, R110). -/

namespace Sys2Proof.Machine

variable {s t u : State} {p q : PosIx} {ses : Session}

/-! ## A position without a session and without heat -/

/-- A position has no session, holds no grant and waits for none. -/
structure Cold (p : PosIx) (s : State) : Prop where
  session : s.session p = none
  grant : (s.vol p).grant = .none ∨ (s.vol p).grant = .releasing
  idle : p ∉ s.heat.queue

theorem Cold.not_granted (h : Cold p s) : (s.vol p).grant ≠ .granted := by
  rcases h.grant with h | h <;> rw [h] <;> exact fun e => nomatch e

/-- A change that leaves the grant, the queue and the sessions. -/
theorem Cold.of_same (h : Cold p s) (hses : t.session p = s.session p) (hg : (t.vol p).grant = (s.vol p).grant)
    (hq : t.heat.queue = s.heat.queue) : Cold p t :=
  ⟨hses.trans h.session, by rw [hg]; exact h.grant, by rw [hq]; exact h.idle⟩

theorem Cold.setVol (h : Cold p s) (f : PosState → PosState) (hf : ∀ v, (f v).grant = v.grant) :
    Cold p (s.setVol p f) :=
  h.of_same rfl (by rw [State.vol_setVol, if_pos rfl, hf]) rfl

theorem Cold.serveOwed (h : Cold p s) : Cold p (serveOwed p s) := by
  obtain ⟨hg, -, hheat⟩ := grant_serveOwed p p s
  exact h.of_same (serveOwed_session p p s) hg (by rw [hheat])

theorem Cold.evaluate (h : Cold p s) : Cold p (evaluate s) := by
  obtain ⟨hvol, hout⟩ := evaluate_idle h.idle
  exact ⟨((grantStep_evaluate s).session p).trans h.session, by rw [hvol]; exact h.grant, hout⟩

theorem Cold.activatePending (h : Cold p s) : Cold p (activatePending s) :=
  h.of_same ((grantStep_activatePending s).session p) (by rw [vol_activatePending]) (by rw [heat_activatePending])

theorem Cold.endGrant (h : Cold p s) : Cold p (endGrant p s) :=
  ⟨h.session, .inl (grant_endGrant p s), fun hmem => h.idle (List.mem_of_mem_erase hmem)⟩

theorem Cold.not_mayQueue (h : Cold p s) : s.mayQueue p = false := by
  rw [State.mayQueue, not_running_of_none h.session]
  rfl

theorem Cold.heatOnCancelled (h : Cold p s) : Cold p (heatOnCancelled p s) := by
  have hended := h.endGrant.activatePending
  unfold Machine.heatOnCancelled
  split
  · dsimp only
    rw [hended.not_mayQueue, Bool.and_false]
    exact hended.evaluate
  · exact h

/-- Nothing that leaves the queue of such a position gives it a grant (R35, R128). -/
theorem Cold.afterRemoval (h : Cold p s) (wd : PosIx → State → State) (removed : Option Order) :
    Cold p (afterRemoval wd p removed s) := by
  unfold Machine.afterRemoval
  split
  · exact h
  · split
    · exact h.setVol _ fun _ => rfl
    · refine Cold.serveOwed ?_
      unfold reportCancelled
      split
      · split
        · rw [cancelIfStarting, State.sessionIs, h.session]
          exact h
        · exact h
      · split
        · rw [extensionFailWith, h.session]
          exact h
        · exact h
      · exact h.heatOnCancelled
      all_goals exact h

theorem Cold.makeStep (h : Cold p s) (wd : PosIx → State → State) (n : UrgentStep) : Cold p (makeStep wd p n s) :=
  (h.setVol (fun v => { v with orders := n.orders }) fun _ => rfl).afterRemoval wd n.removed

theorem Cold.askUrgentFor (wd : PosIx → State → State) (u : Urgent) (k : Nat) :
    ∀ {s : State}, Cold p s → Cold p (askUrgentFor wd u p k s) := by
  induction k with
  | zero => exact fun h => h.makeStep wd _
  | succ k ih =>
    intro s h
    unfold Machine.askUrgentFor
    dsimp only
    split
    · exact h.makeStep wd _
    · exact ih (h.makeStep wd _)

theorem Cold.askHalt (h : Cold p s) : Cold p (askHalt p s) := h.askUrgentFor _ _ _

/-- A close leaves its position without heat (R119, R129). -/
theorem cold_closeSession (hs : s.session p = some ses) (hl : HeatLaw s) (hq : QueueLaw (s.vol p).orders) (e : Ending) :
    Cold p (closeSession p e s) := by
  have hmoves : Moves s (committedFell (s.captured p ses e)) := committedFell_moves
    ((letGo_moves OrderBody.isExtend p .refl).tail (.close p ses _ _ _ _ (by rw [letGo_session, hs]) fun _ => rfl))
  have hnone : (committedFell (s.captured p ses e)).session p = none := by
    rw [(grantStep_committedFell _).session, session_captured, if_pos rfl]
  obtain ⟨hgrant, -, hnot⟩ := withdraw_ends (heatCore_of_law (heatLaw_moves hl hmoves)) (queueLaw_moves hmoves hq)
    fun h => by rw [not_running_of_none hnone] at h; exact nomatch h.2.1
  refine ⟨?_, ?_, ?_⟩
  · rw [State.session, ret_closeSession hs]
    exact ((grantStep_closed s ses p e).session p).trans (by rw [session_captured, if_pos rfl])
  · rw [vol_closeSession hs]
    exact hgrant
  · rw [heat_closeSession hs]
    exact hnot

/-! ## A close and a HALT -/

/-- What a close established stands behind a change of queues, grants and budgets. -/
theorem SessionClosed.step {charge : Nat} {reason : EndReason} {code : Option Nat}
    (h : SessionClosed s t p ses charge reason code) (k : GrantStep t u) (hk : Kept p t u) :
    SessionClosed s u p ses charge reason code := by
  obtain ⟨⟨hgone, hother, hchanged⟩, ⟨hrec, hnum⟩, hcard⟩ := h
  exact ⟨⟨(k.session p).trans hgone, fun q hq => (k.session q).trans (hother q hq), (hk.pos p).changed hchanged⟩,
    ⟨k.settlements.1.trans hrec, k.settlements.2.trans hnum⟩, hcard.of_cards rfl k.cards⟩

theorem Declined.step {x : TermIx} {tag : Byte} {reason : DeclineReason} {id : CardId}
    (h : Declined s t x tag reason id) (k : GrantStep t u) : Declined s u x tag reason id := by
  intro hadm hlen
  have := h hadm hlen
  rwa [State.terminal, k.term, available_congr (k.card id)]

/-- A close with a HALT behind it (R117, R119). -/
theorem closeSession_halt (hs : s.session p = some ses) (hl : HeatLaw s) (hq : QueueLaw (s.vol p).orders)
    (hfree : NumberFree s) (e : Ending) :
    let t := askHalt p (closeSession p e s)
    SessionClosed s t p ses (ses.charge e.reason e.policy) e.reason e.code
    ∧ (∀ x, ses.ext = some x → Declined s t x.term x.reqTag .machineFault ses.cardId)
    ∧ RoomStep s t ∧ (t.vol p).windDown = (e.windsDown || (s.vol p).windDown) ∧ (t.vol p).haltStands = true
    ∧ Cold p t := by
  obtain ⟨hclosed, hdeclined, hwind⟩ := closeSession_spec hs hfree e
  have hcold := cold_closeSession hs hl hq e
  have told := told_askHalt p (closeSession p e s)
  have hstep := told.calm (State.quiet_of_none hcold.session)
  have hlaw : QueueLaw ((closeSession p e s).vol p).orders := queueLaw_moves (closeSession_moves p e .refl) hq
  exact ⟨hclosed.step hstep told.kept, fun x hx => (hdeclined x hx).step hstep,
    (room_closeSession e s).trans told.room, (windDown_of_marks (told.kept.pos p).marks).trans hwind,
    haltStands_askHalt hlaw, hcold.askHalt⟩

/-! ## FORCE END -/

theorem forcePolicy_of_le {b : Byte} (h : b.toNat ≤ 1) :
    forcePolicy b = some (if b = 0#8 then .full else .unused) := by
  rcases byte_le_one h with rfl | rfl <;> rfl

theorem forcePolicy_of_gt {b : Byte} (h : 1 < b.toNat) : forcePolicy b = none := by
  unfold forcePolicy
  rw [if_neg fun e => by rw [e] at h; exact absurd h (by decide),
    if_neg fun e => by rw [e] at h; exact absurd h (by decide)]

/-- FORCE END of an open session (R117). -/
theorem exec_forceEnd {tag addr policy : Byte} (h : LinkReady s) (hp : posOf addr = some p)
    (hconf : s.configured p = true) (hs : s.session p = some ses) {pol : Policy} (hpol : forcePolicy policy = some pol)
    (hroom : RoomStep (s.heard (.forceEnd addr policy) tag) (forceEndSession p pol (s.heard (.forceEnd addr policy) tag))) :
    exec (.forceEnd tag addr policy) s = .next (State.replied
      { forceEndSession p pol (s.heard (.forceEnd addr policy) tag) with link := s.link } 0x70#8 tag []) := by
  refine request_accepted (r := .forceEnd addr policy) h ?_ hroom.link
  change processForceEnd addr policy _ = _
  unfold processForceEnd
  rw [hp]
  dsimp only
  rw [if_neg, hpol]
  rw [show (s.heard (.forceEnd addr policy) tag).configured p = true from hconf,
    show (s.heard (.forceEnd addr policy) tag).session p = some ses from hs]
  exact Bool.false_ne_true

theorem charge_operator (policy : Byte) (ses : Session) :
    ses.charge .operator (if policy = 0#8 then .full else .unused) = if policy = 0#8 then 0 else ses.unusedCharge := by
  split <;> rfl

/-- Settles O31. -/
theorem forceEndEndsSession : Obligations.ForceEndEndsSession := by
  unfold Obligations.ForceEndEndsSession
  refine fun tag addr policy s h => ⟨fun hno => request_refused (r := .forceEnd addr policy) h ?_,
    fun p ses hp hconf hs => ⟨fun hpol => request_refused (r := .forceEnd addr policy) h ?_, fun hpol hst => ?_,
      fun hpol hst hl hq hfree => ?_⟩⟩
  · change processForceEnd addr policy _ = _
    unfold processForceEnd
    cases hp : posOf addr with
    | none => rfl
    | some p =>
      refine if_pos ?_
      rcases hno p hp with hconf | hs
      · rw [show (s.heard (.forceEnd addr policy) tag).configured p = false from hconf]
        rfl
      · rw [show (s.heard (.forceEnd addr policy) tag).session p = none from hs]
        exact Bool.or_true _
  · change processForceEnd addr policy _ = _
    unfold processForceEnd
    rw [hp]
    dsimp only
    rw [forcePolicy_of_gt hpol, if_neg]
    rw [show (s.heard (.forceEnd addr policy) tag).configured p = true from hconf,
      show (s.heard (.forceEnd addr policy) tag).session p = some ses from hs]
    exact Bool.false_ne_true
  · have hended : forceEndSession p (if policy = 0#8 then .full else .unused) (s.heard (.forceEnd addr policy) tag)
        = cancelSession p .machineNotReady (s.heard (.forceEnd addr policy) tag) :=
      if_pos (by
        rw [State.sessionIs, show (s.heard (.forceEnd addr policy) tag).session p = some ses from hs]
        exact beq_iff_eq.mpr hst)
    have hexec := exec_forceEnd (tag := tag) h hp hconf hs (forcePolicy_of_le hpol) (by
      rw [hended]; exact (stirred_cancelSession (p := p) .machineNotReady _).room)
    rw [hended] at hexec
    obtain ⟨hcancelled, hdeclined, -⟩ :=
      cancelSession_spec (s := s.heard (.forceEnd addr policy) tag) hs .machineNotReady
    exact ⟨_, hexec, hcancelled, (congrArg (fun x : State => { x with link := s.link })
      (stirred_cancelSession (p := p) .machineNotReady (s.heard (.forceEnd addr policy) tag)).room :), hdeclined⟩
  · intro charge
    let e : Ending :=
      { reason := .operator, policy := if policy = 0#8 then .full else .unused, code := none, safety := false }
    have hended : forceEndSession p (if policy = 0#8 then .full else .unused) (s.heard (.forceEnd addr policy) tag)
        = askHalt p (closeSession p e (s.heard (.forceEnd addr policy) tag)) :=
      if_neg (by
        rw [State.sessionIs, show (s.heard (.forceEnd addr policy) tag).session p = some ses from hs]
        exact fun hb => hst (beq_iff_eq.mp hb))
    obtain ⟨hclosed, hdeclined, hroom, hwind, hhalt, hcold⟩ :=
      closeSession_halt (s := s.heard (.forceEnd addr policy) tag) hs hl hq hfree e
    have hexec := exec_forceEnd (tag := tag) h hp hconf hs (forcePolicy_of_le hpol) (by rw [hended]; exact hroom)
    rw [hended] at hexec
    rw [show ses.charge e.reason e.policy = charge from charge_operator policy ses] at hclosed
    exact ⟨_, hexec, hclosed, hdeclined, (congrArg (fun x : State => { x with link := s.link }) hroom :), hwind, hhalt,
      hcold.not_granted⟩

end Sys2Proof.Machine
end

section
/-! A completed minute of a meter (R107, R110). -/

namespace Sys2Proof.Machine

variable {s t u : State} {p q : PosIx} {ses : Session}

/-! ## A session that changes -/

theorem setSession_of_some (hs : s.session p = some ses) (f : Session → Session) :
    (s.setSession p fun o => o.map f) = s.setSession p fun _ => some (f ses) := by
  have h : s.ret.sessions[p.val].map f = some (f ses) := congrArg (Option.map f) hs
  exact congrArg (fun o => s.write fun r => { r with sessions := r.sessions.set p.val o }) h

theorem setSession_setSession (p : PosIx) (x y : Option Session) (s : State) :
    ((s.setSession p fun _ => x).setSession p fun _ => y).ret
      = { s.ret with sessions := s.ret.sessions.set p.val y } := by
  change ({ s.ret with sessions := (s.ret.sessions.set p.val x).set p.val y } : Retained) = _
  rw [Vector.set_set]

/-! ## A completed minute -/

/-- A washer session with a minute counted (R107). -/
def Session.countedWasher (ses : Session) : Session :=
  { ses with minuteDue := false, elapsed := min (ses.elapsed + 1) 255 }

/-- A dryer session with a minute counted (R107, R110). -/
def Session.counted (ses : Session) (holding : Bool) : Session :=
  { ses with
    minuteDue := false
    elapsed := ses.elapsed + 1
    heated := if 30 ≤ ses.heatSecs then ses.heated + 1 else ses.heated
    cool := if 30 ≤ ses.heatSecs then ses.cool else ses.cool + 1
    heatSecs := 0
    holding := holding }

theorem exec_meterMinute (hl : s.live = true) : exec (.meterMinute p) s = .next (countMinute p s.fresh) :=
  taking_of_live _ hl

theorem countMinute_washer (hs : s.session p = some ses) (hdue : ses.minuteDue = true) (hc : ses.mclass = .washer) :
    countMinute p s = s.setSession p fun _ => some ses.countedWasher := by
  rw [← setSession_of_some hs Session.countedWasher]
  unfold countMinute
  rw [hs]
  dsimp only
  rw [hdue, hc]
  rfl

theorem countMinute_dryer (hs : s.session p = some ses) (hdue : ses.minuteDue = true) (hc : ses.mclass = .dryer) :
    countMinute p s =
      (let u := s.setSession p fun _ =>
        some (ses.counted (ses.holding || (ses.elapsed + 1 == ses.purchased && ses.ext.isSome)))
       if ses.elapsed + 1 = ses.purchased ∧ ses.ext = none then goEnding p u else u) := by
  have hset := setSession_of_some hs fun x => { x with
    minuteDue := false
    elapsed := x.elapsed + 1
    heated := if Config.heatedSeconds ≤ ses.heatSecs then x.heated + 1 else x.heated
    cool := if Config.heatedSeconds ≤ ses.heatSecs then x.cool else x.cool + 1
    heatSecs := 0
    holding := x.holding || (ses.elapsed + 1 == ses.purchased && x.ext.isSome) }
  unfold countMinute
  rw [hs]
  dsimp only
  rw [hdue, hc, if_neg (show ¬ (!true) = true from Bool.false_ne_true), hset]
  refine if_congr ?_ rfl rfl
  rw [Bool.and_eq_true, beq_iff_eq, Option.isNone_iff_eq_none]

/-! ## A dryer whose minutes are over -/

/-- The orders of a session that goes to ENDING: END where there is room (R36, R110). -/
def PosState.endedOrders (v : PosState) : List Order :=
  if v.orders.length < 4 then v.orders ++ [newOrder .finish] else v.orders

theorem endAsked_eq (hs : s.session p = some ses) : s.endAsked p = { s with
    trail := (s.endAsked p).trail
    ret := { s.ret with sessions := s.ret.sessions.set p.val (some (ses.toEnding s.ret.config.doneLimit)) }
    pos := s.pos.set p.val { s.vol p with orders := (s.vol p).endedOrders } } := by
  have hset := setSession_of_some hs fun ses => ses.toEnding s.ret.config.doneLimit
  unfold State.endAsked PosState.endedOrders
  dsimp only
  have room : (s.setSession p fun _ => some (ses.toEnding s.ret.config.doneLimit)).queueHasRoom p
      = decide ((s.vol p).orders.length < 4) := rfl
  rw [hset, room]
  by_cases hroom : (s.vol p).orders.length < 4
  · rw [if_pos hroom, decide_eq_true hroom, if_pos rfl]
    rfl
  · rw [if_neg hroom, decide_eq_false hroom, if_neg Bool.false_ne_true]
    refine (show _ = ({ s with
      trail := s.ret :: s.trail
      ret := { s.ret with sessions := s.ret.sessions.set p.val (some (ses.toEnding s.ret.config.doneLimit)) }
      pos := s.pos.set p.val s.pos[p.val] } : State) from ?_)
    rw [Vector.set_getElem_self]
    rfl

theorem endAsked_moves (p : PosIx) (s : State) : Moves s (s.endAsked p) := by
  unfold State.endAsked
  dsimp only
  split
  · next hroom => exact appendOrder_moves p _ hroom rfl (by simp [newOrder]) (setSession_moves p _ .refl)
  · exact setSession_moves p _ .refl

theorem vol_endAsked (hs : s.session p = some ses) :
    (s.endAsked p).vol p = { s.vol p with orders := (s.vol p).endedOrders } := by
  rw [endAsked_eq hs]
  exact (State.vol_setVol p p (fun _ => { s.vol p with orders := (s.vol p).endedOrders }) s).trans (if_pos rfl)

/-- A dryer without a grant to withdraw that goes to ENDING (R110). -/
theorem goEnding_of_ended (hs : s.session p = some ses)
    (hg : (s.vol p).grant = .none ∨ (s.vol p).grant = .releasing) : goEnding p s = { s with
      trail := (goEnding p s).trail
      ret := { s.ret with sessions := s.ret.sessions.set p.val (some (ses.toEnding s.ret.config.doneLimit)) }
      pos := s.pos.set p.val { s.vol p with orders := (s.vol p).endedOrders, changed := true } } := by
  have hgrant : ((s.endAsked p).vol p).grant = (s.vol p).grant := by rw [vol_endAsked hs]
  obtain ⟨trail, heq⟩ : ∃ trail, s.endAsked p = { s with
      trail := trail
      ret := { s.ret with sessions := s.ret.sessions.set p.val (some (ses.toEnding s.ret.config.doneLimit)) }
      pos := s.pos.set p.val { s.vol p with orders := (s.vol p).endedOrders } } := ⟨_, endAsked_eq hs⟩
  rw [goEnding_eq, withdraw_of_ended (by rw [hgrant]; exact hg), heq]
  exact setVol_setVol p (fun _ => { s.vol p with orders := (s.vol p).endedOrders })
    (fun v => { v with changed := true }) { s with
      trail := trail
      ret := { s.ret with sessions := s.ret.sessions.set p.val (some (ses.toEnding s.ret.config.doneLimit)) } }

/-! ## END behind a withdrawal -/

/-- END is neither absorbed nor a display order: it stays while a grant is withdrawn and nothing asks for heat again
(R38, R39, R129). -/
theorem finish_mem_withdraw (hs : HeatCore s)
    (h : ¬ ((s.vol p).heatRequest = true ∧ s.sessionIs p .running = true ∧ 0 < s.heaterDemand p))
    (hroom : (s.vol p).orders.length < 4) {o : Order} (ho : o ∈ (s.vol p).orders) (hb : o.body = .finish) :
    o ∈ ((withdraw p s).vol p).orders := by
  have served : ∀ {w : State}, o ∈ (w.vol p).orders → o ∈ ((serveOwed p w).vol p).orders := fun {w} hmem => by
    unfold serveOwed
    split
    · unfold askDisplay
      dsimp only
      rw [State.vol_setVol, if_pos rfl]
      have hstays : o ∈ (w.vol p).orders.filter fun o => !(o.undelivered && o.body.display) :=
        List.mem_filter.mpr ⟨hmem, by simp [hb, OrderBody.display]⟩
      unfold queueDisplay
      dsimp only
      split
      · exact List.mem_append_left _ hstays
      · exact hstays
    · exact hmem
  cases hg : (s.vol p).grant with
  | none => rw [withdraw_of_ended (.inl hg)]; exact ho
  | releasing => rw [withdraw_of_ended (.inr hg)]; exact ho
  | queued =>
    have hout : p ∉ (endGrant p s).heat.queue := fun hmem => ((hs.queue_nodup.mem_erase_iff).mp hmem).1 rfl
    rw [withdraw_of_queued hg, (evaluate_idle hout).1, endGrant_eq, vol_grantEnded]
    exact ho
  | granted =>
    by_cases hon : ∃ o ∈ (s.vol p).orders, o.tag = none ∧ o.body = .heatOn
    · obtain ⟨before, on, behind, hq, hfirst, hbefore⟩ := exists_first_heatOn hon
      rw [withdraw_absorbed hs hg hq hfirst hbefore]
      refine served ?_
      have hout : p ∉ (activatePending (s.grantEnded p (before ++ behind))).heat.queue := by
        rw [heat_activatePending]
        exact fun hmem => ((hs.queue_nodup.mem_erase_iff).mp hmem).1 rfl
      rw [afterAbsorbed_done _ h, (evaluate_idle hout).1, vol_activatePending, vol_grantEnded]
      change o ∈ before ++ behind
      rw [hq] at ho
      have hne : o ≠ on := fun e => by rw [← e, hb] at hfirst; exact nomatch hfirst.2
      rcases List.mem_append.mp ho with hmem | hmem
      · exact List.mem_append_left _ hmem
      · exact List.mem_append_right _ ((List.mem_cons.mp hmem).resolve_left hne)
    · rw [withdraw_of_room hg (fun x hx htag hbody => hon ⟨x, hx, htag, hbody⟩) (.inl hroom)]
      change o ∈ (((s.setVol p fun _ => (s.vol p).ended .releasing (withHeatOff (s.vol p).orders))).vol p).orders
      rw [State.vol_setVol, if_pos rfl]
      change o ∈ withHeatOff (s.vol p).orders
      rw [withHeatOff_eq]
      split
      · exact ho
      · exact mem_place.mpr (.inr ho)

theorem changed_goEnding (p : PosIx) (s : State) : ((goEnding p s).vol p).changed = true := changed_markChanged p _

/-- A dryer with a grant to withdraw that goes to ENDING (R110, R129). -/
theorem grant_goEnding (hs : s.session p = some ses) (hl : HeatLaw s) (hq : QueueLaw (s.vol p).orders) :
    (((goEnding p s).vol p).grant = .none ∨ ((goEnding p s).vol p).grant = .releasing)
    ∧ ((s.vol p).grant = .queued → ((goEnding p s).vol p).grant = .none)
    ∧ ((s.vol p).grant = .granted →
      ((∃ o ∈ (s.vol p).orders, o.tag = none ∧ o.body = .heatOn) → ((goEnding p s).vol p).grant = .none)
      ∧ ((¬ ∃ o ∈ (s.vol p).orders, o.tag = none ∧ o.body = .heatOn) →
        ((goEnding p s).vol p).grant = .releasing ∧ ((goEnding p s).vol p).heatOffStands = true))
    ∧ ((s.vol p).orders.length < 3 → newOrder .finish ∈ ((goEnding p s).vol p).orders) := by
  have hmoves : Moves s (s.endAsked p) := endAsked_moves p s
  have hcore := heatCore_of_law (heatLaw_moves hl hmoves)
  have hlaw := queueLaw_moves (p := p) hmoves hq
  have hvol := vol_endAsked hs
  have hcalm : ¬ (((s.endAsked p).vol p).heatRequest = true ∧ (s.endAsked p).sessionIs p .running = true
      ∧ 0 < (s.endAsked p).heaterDemand p) := fun ⟨_, hrun, _⟩ => by
    rw [State.sessionIs, session_endAsked hs] at hrun
    exact nomatch hrun
  have hgrant : ((s.endAsked p).vol p).grant = (s.vol p).grant := by rw [hvol]
  have hon : (∃ o ∈ ((s.endAsked p).vol p).orders, o.tag = none ∧ o.body = .heatOn)
      ↔ ∃ o ∈ (s.vol p).orders, o.tag = none ∧ o.body = .heatOn := by
    rw [hvol]
    unfold PosState.endedOrders
    dsimp only
    split <;> simp [newOrder]
  have hended : ((goEnding p s).vol p) = { (withdraw p (s.endAsked p)).vol p with changed := true } := by
    rw [goEnding_eq, State.markChanged, State.vol_setVol, if_pos rfl]
  obtain ⟨hends, hqueued, -⟩ := withdraw_ends hcore hlaw hcalm
  rw [hended]
  refine ⟨hends, fun h => hqueued (hgrant.trans h), fun h => ⟨fun hex => ?_, fun hno => ?_⟩, fun hlen => ?_⟩
  · exact (withdraw_absorbed_none hcore (hgrant.trans h) (hon.mpr hex) hcalm).1
  · obtain ⟨hr, hstands, -⟩ := withdraw_releasing hcore hlaw (hgrant.trans h) fun o ho htag hbody =>
      hno (hon.mp ⟨o, ho, htag, hbody⟩)
    exact ⟨hr.grant, hstands⟩
  · have horders : ((s.endAsked p).vol p).orders = (s.vol p).orders ++ [newOrder .finish] := by
      rw [hvol]
      exact if_pos (Nat.lt_succ_of_lt hlen)
    refine finish_mem_withdraw hcore hcalm ?_ (o := newOrder .finish) ?_ rfl
    · rw [horders, List.length_append]
      exact Nat.succ_lt_succ hlen
    · rw [horders]
      exact List.mem_append_right _ List.mem_cons_self

/-- Settles O41. -/
theorem meterMinuteCounted : Obligations.MeterMinuteCounted := by
  unfold Obligations.MeterMinuteCounted
  refine fun s p ses hl hs => ⟨fun hdue => ?_, fun hdue => ⟨fun hc => ?_, fun hc => ?_⟩⟩
  · refine (exec_meterMinute hl).trans (congrArg _ (countMinute_idle fun x hx => ?_))
    rw [← Option.some.inj (hs.symm.trans hx)]
    exact hdue
  · exact (exec_meterMinute hl).trans (congrArg _ (countMinute_washer (s := s.fresh) hs hdue hc))
  · intro counted
    have hexec := (exec_meterMinute hl (p := p)).trans (congrArg _ (countMinute_dryer (s := s.fresh) hs hdue hc))
    dsimp only at hexec
    refine ⟨fun hne => ?_, fun heq hext => ?_, fun heq hext hg => ?_, fun heq hext hlaw hq hg => ?_⟩
    · rw [if_neg fun h => hne h.1, beq_false_of_ne hne, Bool.false_and, Bool.or_false] at hexec
      exact hexec
    · have hholds : (ses.holding || (ses.elapsed + 1 == ses.purchased && ses.ext.isSome)) = true := by simp [heq, hext]
      rw [if_neg (fun h => by rw [h.2] at hext; exact nomatch hext), hholds] at hexec
      exact hexec
    · rw [if_pos ⟨heq, hext⟩] at hexec
      generalize (ses.holding || (ses.elapsed + 1 == ses.purchased && ses.ext.isSome)) = holding at hexec
      have hses : (s.fresh.setSession p fun _ => some (ses.counted holding)).session p = some (ses.counted holding) := by
        rw [State.session_setSession, if_pos rfl]
      refine ⟨_, hexec, (goEnding_of_ended hses hg).trans ?_⟩
      have hret := setSession_setSession p (some (ses.counted holding))
        (some ((ses.counted holding).toEnding s.ret.config.doneLimit)) s.fresh
      exact congrArg (fun r : Retained => ({ s with
        trail := (goEnding p (s.fresh.setSession p fun _ => some (ses.counted holding))).trail
        ret := r
        pos := s.pos.set p.val { s.vol p with orders := (s.vol p).endedOrders, changed := true } } : State)) hret
    · rw [if_pos ⟨heq, hext⟩] at hexec
      generalize (ses.holding || (ses.elapsed + 1 == ses.purchased && ses.ext.isSome)) = holding at hexec
      let u := s.fresh.setSession p fun _ => some (ses.counted holding)
      have hses : u.session p = some (ses.counted holding) := by rw [State.session_setSession, if_pos rfl]
      have hmoves : Moves s.fresh u := by
        have := setSession_moves p (fun _ : Session => ses.counted holding) (s₀ := s.fresh) .refl
        rwa [setSession_of_some (s := s.fresh) hs] at this
      have hlaw' : HeatLaw u := heatLaw_moves (s := s.fresh) hlaw hmoves
      have hlaw'' := heatCore_of_law (heatLaw_moves hlaw' (goEnding_moves p .refl))
      obtain ⟨hends, hqueued, hgranted, hend⟩ := grant_goEnding hses hlaw' hq
      have hstep := grantStep_goEnding hses hext
      refine ⟨_, hexec, (show RoomStep s.fresh u from rfl).trans (stirred_goEnding p u).room, hstep.cards,
        hstep.settlements.1, session_goEnding (ses := ses.counted holding) hses hext, fun q hq => ?_,
        changed_goEnding p u, ?_, ?_, hend, hqueued,
        hgranted⟩
      · exact ((stirred_goEnding p u).sessions q hq).trans (by rw [State.session_setSession, if_neg (Ne.symm hq)]; rfl)
      · refine hlaw''.not_mem_queue fun h => ?_
        rcases hends with e | e <;> rw [e] at h <;> exact nomatch h
      · intro hmem
        have h := (hlaw''.mem_order p).mp hmem
        rcases hends with e | e <;> rw [e] at h <;> exact nomatch h

end Sys2Proof.Machine
end

section
/-! The pause and done limits (R109, R110). -/

namespace Sys2Proof.Machine

variable {s t u : State} {p q : PosIx} {ses : Session}

/-! ## Room for an END behind a close -/

/-- Room for two more orders, or for one more where a HEAT_ON came that a withdrawal takes away again. -/
def Roomy (p : PosIx) (s : State) : Prop :=
  ((s.vol p).orders.length ≤ 2 ∧ s.heat.queue.Nodup)
    ∨ ((s.vol p).orders.length ≤ 3 ∧ (∃ o ∈ (s.vol p).orders, o.tag = none ∧ o.body = .heatOn) ∧ p ∉ s.heat.queue)

theorem Roomy.evaluate (h : Roomy p s) : Roomy p (evaluate s) := by
  refine evaluate_induction (motive := fun s t => Roomy p s → Roomy p t) (fun _ h => h)
    (fun s x rest t hq _ ih h => ih ?_) s h
  obtain ⟨v, order, queue, heq, hsub, -, hv⟩ := grantHead_spec hq
  have hqueue : (grantHead x s).heat.queue = queue := by rw [heq]
  have hmem : ∀ y, y ∉ s.heat.queue → y ∉ queue := fun y hy hmem =>
    hy (by rw [hq]; exact List.mem_cons_of_mem _ (hsub.subset hmem))
  by_cases hx : p = x
  · subst hx
    obtain ⟨hlen, hnodup⟩ := h.resolve_right fun h => h.2.2 (by rw [hq]; exact List.mem_cons_self)
    rw [hq] at hnodup
    obtain ⟨hp, hrest⟩ := List.nodup_cons.mp hnodup
    have hvol : (grantHead p s).vol p = v := by
      rw [heq]
      exact (State.vol_setVol p p (fun _ => v) s).trans (if_pos rfl)
    unfold Roomy
    rw [hvol, hqueue]
    rcases hv with rfl | rfl
    · refine .inr ⟨?_, ⟨newOrder .heatOn, List.mem_append_right _ List.mem_cons_self, rfl, rfl⟩,
        fun h => hp (hsub.subset h)⟩
      change ((s.vol p).orders ++ [_]).length ≤ 3
      rw [List.length_append]
      exact Nat.succ_le_succ hlen
    · exact .inl ⟨hlen, hrest.sublist hsub⟩
  · unfold Roomy
    rw [vol_grantHead_of_ne hq hx, hqueue]
    refine h.imp (fun h => ⟨h.1, ?_⟩) fun h => ⟨h.1, h.2.1, hmem p h.2.2⟩
    have := h.2
    rw [hq] at this
    exact (List.nodup_cons.mp this).2.sublist hsub

theorem Roomy.committedFell (h : Roomy p s) : Roomy p (committedFell s) := by
  refine Roomy.evaluate ?_
  unfold Roomy
  rw [vol_activatePending, heat_activatePending]
  exact h

theorem length_insertBehindHalt (o : Order) (q : List Order) : (insertBehindHalt o q).length = q.length + 1 := by
  cases q with
  | nil => rfl
  | cons x xs =>
    change (if x.undelivered && x.body == .halt then x :: o :: xs else o :: x :: xs).length = _
    split <;> rfl

theorem length_insertHeatOff (o : Order) (q : List Order) : (insertHeatOff o q).length = q.length + 1 := by
  cases q with
  | nil => rfl
  | cons x xs =>
    change (if x.undelivered then insertBehindHalt o (x :: xs) else x :: insertBehindHalt o xs).length = _
    split
    · exact length_insertBehindHalt ..
    · rw [List.length_cons, length_insertBehindHalt]
      rfl

theorem withHeatOff_length (q : List Order) : (withHeatOff q).length ≤ q.length + 1 := by
  rw [withHeatOff_eq]
  split
  · exact Nat.le_succ _
  · exact (length_insertHeatOff _ q).le

/-- Behind the withdrawal of a grant with such room there is room for an END (R36, R38, R129). -/
theorem Roomy.withdraw (h : Roomy p s) (hs : HeatCore s) (howed : (s.vol p).owed = false)
    (hcalm : ¬ ((s.vol p).heatRequest = true ∧ s.sessionIs p .running = true ∧ 0 < s.heaterDemand p)) :
    ((withdraw p s).vol p).orders.length < 4 := by
  have hlen : (s.vol p).orders.length ≤ 3 := h.elim (fun h => Nat.le_succ_of_le h.1) fun h => h.1
  cases hg : (s.vol p).grant with
  | none => rw [withdraw_of_ended (.inl hg)]; exact Nat.lt_succ_of_le hlen
  | releasing => rw [withdraw_of_ended (.inr hg)]; exact Nat.lt_succ_of_le hlen
  | queued =>
    have hout : p ∉ (endGrant p s).heat.queue := fun hmem => ((hs.queue_nodup.mem_erase_iff).mp hmem).1 rfl
    rw [withdraw_of_queued hg, (evaluate_idle hout).1, endGrant_eq, vol_grantEnded]
    exact Nat.lt_succ_of_le hlen
  | granted =>
    by_cases hon : ∃ o ∈ (s.vol p).orders, o.tag = none ∧ o.body = .heatOn
    · obtain ⟨before, on, behind, hq, hfirst, hbefore⟩ := exists_first_heatOn hon
      have hout : p ∉ (activatePending (s.grantEnded p (before ++ behind))).heat.queue := by
        rw [heat_activatePending]
        exact fun hmem => ((hs.queue_nodup.mem_erase_iff).mp hmem).1 rfl
      rw [withdraw_absorbed hs hg hq hfirst hbefore, serveOwed_of_not_owed ((owed_afterAbsorbed _ _).trans howed),
        afterAbsorbed_done _ hcalm, (evaluate_idle hout).1, vol_activatePending, vol_grantEnded]
      change (before ++ behind).length < 4
      rw [hq, List.length_append, List.length_cons] at hlen
      rw [List.length_append]
      omega
    · have hlen' := (h.resolve_right fun h => hon h.2.1).1
      rw [withdraw_of_room hg (fun x hx htag hbody => hon ⟨x, hx, htag, hbody⟩) (.inl (by omega))]
      change ((s.setVol p fun _ => (s.vol p).ended .releasing (withHeatOff (s.vol p).orders)).vol p).orders.length < 4
      rw [State.vol_setVol, if_pos rfl]
      have := withHeatOff_length (s.vol p).orders
      change (withHeatOff (s.vol p).orders).length < 4
      omega

/-- A close leaves room for an END where there was room for two orders (R36, R109, R119). -/
theorem room_behind_close (hs : s.session p = some ses) (hl : HeatLaw s) (hlen : (s.vol p).orders.length < 3)
    (howed : (s.vol p).owed = false) (e : Ending) : ((closeSession p e s).vol p).orders.length < 4 := by
  have hmoves : Moves s (s.captured p ses e) :=
    (letGo_moves OrderBody.isExtend p .refl).tail (.close p ses _ _ _ _ (by rw [letGo_session, hs]) fun _ => rfl)
  have hcore := heatCore_of_law (heatLaw_moves hl hmoves)
  have hlaw := heatCore_of_law (heatLaw_moves hl (committedFell_moves hmoves))
  have hgone : (committedFell (s.captured p ses e)).session p = none := by
    rw [(grantStep_committedFell _).session, session_captured, if_pos rfl]
  have hvol : (s.captured p ses e).vol p = (letGo OrderBody.isExtend p s).vol p := by
    rw [capture_eq, journalled_eq]
    rfl
  obtain ⟨hshort, howed'⟩ : ((letGo OrderBody.isExtend p s).vol p).orders.length ≤ (s.vol p).orders.length
      ∧ ((letGo OrderBody.isExtend p s).vol p).owed = false := by
    unfold letGo
    dsimp only
    rw [ite_eq_right_iff.mpr fun _ => serveOwed_of_not_owed (by rw [State.vol_setVol, if_pos rfl]; exact howed),
      State.vol_setVol, if_pos rfl]
    refine ⟨?_, howed⟩
    rw [List.length_map]
    exact List.length_filter_le ..
  have howed'' : ((committedFell (s.captured p ses e)).vol p).owed = false := by
    rw [committedFell, owed_evaluate, vol_activatePending, hvol, howed']
  have hroomy : Roomy p (s.captured p ses e) := .inl ⟨by rw [hvol]; omega, hcore.queue_nodup⟩
  rw [vol_closeSession hs]
  exact hroomy.committedFell.withdraw hlaw howed'' fun h => by rw [not_running_of_none hgone] at h; exact nomatch h.2.1

/-! ## The pause limit -/

theorem exec_pauseLimitExpiry (hl : s.live = true) (hs : s.session p = some ses) (hst : ses.state = .paused)
    (hlimit : ses.pauseLimit = some 0) : exec (.pauseLimitExpiry p) s = .next (abandon p s.fresh) := by
  change execPauseLimitExpiry p s = _
  rw [execPauseLimitExpiry, taking_of_live _ hl]
  refine congrArg Host.Outcome.next (if_pos ?_)
  rw [show s.fresh.session p = some ses from hs, Option.any_some, hst, hlimit]
  rfl

theorem exec_doneLimitExpiry (hl : s.live = true) (hs : s.session p = some ses) (hst : ses.state = .ending)
    (hlimit : ses.doneLimit = some 0) : exec (.doneLimitExpiry p) s = .next (timeOut p s.fresh) := by
  change execDoneLimitExpiry p s = _
  rw [execDoneLimitExpiry, taking_of_live _ hl]
  refine congrArg Host.Outcome.next (if_pos ?_)
  rw [show s.fresh.session p = some ses from hs, Option.any_some, hst, hlimit]
  rfl

/-- A pause limit that runs out (R109). -/
theorem abandon_spec (hs : s.session p = some ses) (hl : HeatLaw s) (hfree : NumberFree s) :
    let t := abandon p s
    SessionClosed s t p ses ses.unusedCharge .abandoned none
    ∧ (∀ x, ses.ext = some x → Declined s t x.term x.reqTag .machineFault ses.cardId)
    ∧ RoomStep s t ∧ (t.vol p).windDown = true
    ∧ ((s.vol p).orders.length < 3 → (s.vol p).owed = false →
      (t.vol p).orders.getLast? = some (newOrder .finish)) := by
  intro t
  obtain ⟨hclosed, hdeclined, hwind⟩ := closeSession_spec hs hfree (.plain .abandoned)
  have hroom := room_closeSession (p := p) (.plain .abandoned) s
  have told : Told p (closeSession p (.plain .abandoned) s) t := by
    change Told p _ (if _ then _ else _)
    split
    · exact told_appendOrder p rfl _
    · exact .refl p _
  have hstep := told.calm (State.quiet_of_none hclosed.1.1)
  refine ⟨hclosed.step hstep told.kept, fun x hx => (hdeclined x hx).step hstep, hroom.trans told.room,
    (windDown_of_marks (told.kept.pos p).marks).trans hwind, fun hlen howed => ?_⟩
  have hend : t = appendOrder p (newOrder .finish) (closeSession p (.plain .abandoned) s) :=
    if_pos (decide_eq_true (room_behind_close hs hl hlen howed _))
  rw [hend, appendOrder, State.vol_setVol, if_pos rfl]
  exact List.getLast?_concat ..

/-! ## A close with a notice behind it -/

/-- A close on which a notice of the position follows with its settlement number (R110, R111). -/
theorem closeSession_notice (hs : s.session p = some ses) (hfree : NumberFree s) (e : Ending) (code : Nat) :
    let t := raiseNotice code (some p) (some s.ret.nextSettlement) (closeSession p e s)
    SessionClosed s t p ses (ses.charge e.reason e.policy) e.reason e.code
    ∧ (∀ x, ses.ext = some x → Declined s t x.term x.reqTag .machineFault ses.cardId)
    ∧ RoomStepAndFault s t
    ∧ t.ret.faults.getLast? = some
        { number := s.ret.nextFault, code := code, position := some p, severity := .notice
          minute := s.minuteNow, settlement := some s.ret.nextSettlement, detail := none }
    ∧ (t.vol p).windDown = (e.windsDown || (s.vol p).windDown) := by
  obtain ⟨hclosed, hdeclined, hwind⟩ := closeSession_spec hs hfree e
  have hroom := room_closeSession (p := p) e s
  exact ⟨hclosed, hdeclined, hroom.fault .., hroom.lastFault .., hwind⟩

end Sys2Proof.Machine
end

section
/-! What the machine state of a VALID STATE does to a session (R104, R108 to R111, R116). -/

namespace Sys2Proof.Machine

variable {s t u : State} {p q : PosIx} {ses : Session} {ms : MachineState}

/-! ## Marks -/

/-- A position with the marks of R116 that a machine state leaves. -/
def PosState.marked (v : PosState) (ms : MachineState) : PosState :=
  { v with
    unpaid := v.unpaid && ms == .running
    windDown := v.windDown && (ms == .running || ms == .paused) }

theorem vol_clearMarks (p : PosIx) (ms : MachineState) (s : State) :
    (clearMarks p ms s).vol p = (s.vol p).marked ms := (State.vol_setVol p p _ s).trans (if_pos rfl)

theorem sessionTakesState_of_none (hs : s.session p = none) : sessionTakesState p ms s
    = if ms = .running then unpaidRun p true (clearMarks p ms s) else clearMarks p ms s := by
  unfold sessionTakesState
  dsimp only
  rw [show (clearMarks p ms s).session p = none from hs]

theorem sessionTakesState_of_some (hs : s.session p = some ses) : sessionTakesState p ms s
    = if ses.startReport then (clearMarks p ms s).setSession p fun _ => some { ses with startReport := false }
      else applyReport p ses ms (clearMarks p ms s) := by
  unfold sessionTakesState
  dsimp only
  rw [show (clearMarks p ms s).session p = some ses from hs,
    setSession_of_some (show (clearMarks p ms s).session p = some ses from hs) fun x => { x with startReport := false }]

/-! ## A fault record with other steps behind it -/

theorem RoomStepAndFault.step (h : RoomStepAndFault s t) (k : RoomStep t u) : RoomStepAndFault s u :=
  RoomStep.trans h (congrArg (fun x : State => { x with ret := { x.ret with
    faults := s.ret.faults, nextFault := s.ret.nextFault, overflow := s.ret.overflow } }) k :)

/-- A notice that stands newest, whatever the room does behind it (R147). -/
theorem notice_step (code : Nat) (position : Option PosIx) (number : Option Nat)
    (h : RoomStep (raiseNotice code position number s) t) :
    RoomStepAndFault s t ∧ t.ret.faults.getLast? = some
      { number := s.ret.nextFault, code := code, position := position, severity := .notice
        minute := s.minuteNow, settlement := number, detail := none } :=
  ⟨((RoomStep.refl s).fault ..).step h, (congrArg _ h.faults).trans ((RoomStep.refl s).lastFault ..)⟩

/-! ## An unpaid run -/

/-- An unpaid run that is taken up (R116). -/
theorem unpaidRun_spec (fromState : Bool) (hwind : (fromState && (s.vol p).windDown) = false) :
    let t := unpaidRun p fromState s
    (t.vol p).unpaid = true ∧ (QueueLaw (s.vol p).orders → (t.vol p).haltStands = true)
    ∧ ((s.vol p).unpaid = true → RoomStep s t)
    ∧ ((s.vol p).unpaid = false → RoomStepAndFault s t ∧ t.ret.faults.getLast? = some
        { number := s.ret.nextFault, code := 19, position := some p, severity := .notice
          minute := s.minuteNow, settlement := none, detail := none }) := by
  have unpaid : ∀ {w : State}, (w.vol p).unpaid = true → ((askHalt p w).vol p).unpaid = true := fun {w} h =>
    (congrArg PosState.unpaid ((told_askHalt p w).kept.pos p).marks :).trans h
  have halted : ∀ {w : State}, (w.vol p).orders = (s.vol p).orders → QueueLaw (s.vol p).orders →
      ((askHalt p w).vol p).haltStands = true := fun {w} h hq => haltStands_askHalt (by rw [h]; exact hq)
  unfold unpaidRun
  rw [hwind, if_neg Bool.false_ne_true]
  cases hun : (s.vol p).unpaid with
  | true =>
    rw [if_pos rfl]
    refine ⟨?_, ?_, fun _ => ?_, (nomatch ·)⟩
    · split
      · exact hun
      · exact unpaid hun
    · intro hq
      split
      · assumption
      · exact halted rfl hq
    · split
      · exact .refl s
      · exact (told_askHalt p s).room
  | false =>
    rw [if_neg Bool.false_ne_true]
    let w := (raiseNotice 19 (some p) none s).setVol p fun v => { v with unpaid := true }
    have hvol : w.vol p = { s.vol p with unpaid := true } := (State.vol_setVol p p _ _).trans (if_pos rfl)
    refine ⟨unpaid (w := w) (by rw [hvol]), halted (w := w) (by rw [hvol]), (nomatch ·), fun _ => ?_⟩
    exact notice_step 19 (some p) none
      ((show RoomStep (raiseNotice 19 (some p) none s) w from rfl).trans (told_askHalt p w).room)

/-! ## A pause -/

theorem grantStep_joinQueue (p : PosIx) (s : State) : GrantStep s (joinQueue p s) := rfl

theorem grantStep_afterAbsorbed (p : PosIx) (orders : List Order) (s : State) :
    GrantStep s (s.afterAbsorbed p orders) := by
  have hstep : GrantStep s (activatePending (s.grantEnded p orders)) :=
    GrantStep.trans (t := s.grantEnded p orders) rfl (grantStep_activatePending _)
  unfold State.afterAbsorbed
  dsimp only
  refine GrantStep.trans ?_ (grantStep_evaluate _)
  split
  · exact hstep.trans (grantStep_joinQueue p _)
  · exact hstep

/-- A withdrawal reaches the session of its position only by a report of an order that had to make room (R40, R129). -/
theorem grantStep_withdraw (hs : HeatCore s)
    (h : (s.vol p).orders.length < 4 ∨ (s.vol p).grant ≠ .granted ∨ s.Quiet p) : GrantStep s (withdraw p s) := by
  cases hg : (s.vol p).grant with
  | none => rw [withdraw_of_ended (.inl hg)]; exact .refl s
  | releasing => rw [withdraw_of_ended (.inr hg)]; exact .refl s
  | queued =>
    rw [withdraw_of_queued hg]
    exact GrantStep.trans (t := endGrant p s) rfl (grantStep_evaluate _)
  | granted =>
    by_cases hon : ∃ o ∈ (s.vol p).orders, o.tag = none ∧ o.body = .heatOn
    · obtain ⟨before, on, behind, hq, hfirst, hbefore⟩ := exists_first_heatOn hon
      rw [withdraw_absorbed hs hg hq hfirst hbefore]
      exact (grantStep_afterAbsorbed p _ s).trans (grantStep_serveOwed p _)
    · rcases h with h | h | h
      · rw [withdraw_of_room hg (fun x hx htag hbody => hon ⟨x, hx, htag, hbody⟩) (.inl h)]
        rfl
      · exact absurd hg h
      · exact (told_withdraw p s).calm h

/-- A paused session (R109). -/
def Session.paused (ses : Session) (limit : Nat) : Session :=
  { ses with state := .paused, pauseLimit := if ses.mclass = .dryer then some (limit * 60) else none }

theorem pauseSession_eq (hs : s.session p = some ses) : pauseSession p s
    = (withdraw p (s.setSession p fun _ => some (ses.paused s.ret.config.pauseLimit))).markChanged p := by
  have hlimit : ses.paused s.ret.config.pauseLimit = { ses with
      state := .paused
      pauseLimit := match ses.mclass with
        | .washer => none
        | .dryer => some (s.ret.config.pauseLimit * 60) } := by
    unfold Session.paused
    cases ses.mclass <;> rfl
  rw [hlimit, ← setSession_of_some hs fun x => { x with
    state := .paused
    pauseLimit := match x.mclass with
      | .washer => none
      | .dryer => some (s.ret.config.pauseLimit * 60) }]
  rfl

/-- A RUNNING session that pauses (R109). -/
theorem pauseSession_spec (hs : s.session p = some ses) (hl : HeatLaw s) (hq : QueueLaw (s.vol p).orders) :
    let t := pauseSession p s
    RoomStep s t ∧ (t.vol p).changed = true ∧ (∀ q, q ≠ p → t.session q = s.session q)
    ∧ (((s.vol p).orders.length < 4 ∨ (s.vol p).grant ≠ .granted ∨ ses.ext = none) →
      t.session p = some (ses.paused s.ret.config.pauseLimit))
    ∧ ((s.vol p).grant = .none ∨ (s.vol p).grant = .releasing → t
      = (s.setSession p fun _ => some (ses.paused s.ret.config.pauseLimit)).markChanged p)
    ∧ ((s.vol p).grant = .queued → (t.vol p).grant = .none ∧ p ∉ t.heat.queue)
    ∧ ((s.vol p).grant = .granted →
      ((∃ o ∈ (s.vol p).orders, o.tag = none ∧ o.body = .heatOn) → (t.vol p).grant = .none)
      ∧ (¬ (∃ o ∈ (s.vol p).orders, o.tag = none ∧ o.body = .heatOn) →
        (t.vol p).grant = .releasing ∧ (t.vol p).heatOffStands = true)) := by
  let w := s.setSession p fun _ => some (ses.paused s.ret.config.pauseLimit)
  have hw : w.session p = some (ses.paused s.ret.config.pauseLimit) := by rw [State.session_setSession, if_pos rfl]
  have hmoves : Moves s w := by
    have := setSession_moves p (fun _ : Session => ses.paused s.ret.config.pauseLimit) (s₀ := s) .refl
    rwa [setSession_of_some hs] at this
  have hcore := heatCore_of_law (heatLaw_moves hl hmoves)
  have hcalm : ¬ ((w.vol p).heatRequest = true ∧ w.sessionIs p .running = true ∧ 0 < w.heaterDemand p) :=
    fun ⟨_, hrun, _⟩ => by
      rw [State.sessionIs, hw] at hrun
      exact nomatch hrun
  have heq : pauseSession p s = (withdraw p w).markChanged p := pauseSession_eq hs
  have hvol : ((withdraw p w).markChanged p).vol p = { (withdraw p w).vol p with changed := true } := by
    rw [State.markChanged, State.vol_setVol, if_pos rfl]
  obtain ⟨-, hqueued, hnot⟩ := withdraw_ends hcore hq hcalm
  intro t
  rw [show t = (withdraw p w).markChanged p from heq, hvol]
  refine ⟨(show RoomStep s w from rfl).trans ((told_withdraw p w).room.trans (told_markChanged p _).room), rfl,
    fun q hq' => ?_, fun h => ?_, fun h => ?_, fun h => ⟨hqueued h, hnot⟩, fun h => ⟨fun hon => ?_, fun hon => ?_⟩⟩
  · exact ((told_withdraw p w).sessions q hq').trans (by rw [State.session_setSession, if_neg (Ne.symm hq')])
  · refine ((grantStep_withdraw hcore (h.imp id fun h => h.imp id fun hext => ?_)).session p).trans hw
    intro x hx
    rw [← Option.some.inj (hw.symm.trans hx)]
    exact ⟨(nomatch ·), hext⟩
  · exact congrArg (State.markChanged p) (withdraw_of_ended (s := w) h)
  · exact (withdraw_absorbed_none hcore h hon hcalm).1
  · obtain ⟨hr, hstands, -⟩ := withdraw_releasing hcore hq h fun o ho htag hbody => hon ⟨o, ho, htag, hbody⟩
    exact ⟨hr.grant, hstands⟩

/-- A PAUSED session that runs again (R109). -/
theorem resumeSession_eq (hs : s.session p = some ses) : resumeSession p s
    = (s.setSession p fun _ => some { ses with state := .running, pauseLimit := none }).markChanged p := by
  rw [← setSession_of_some hs fun x => { x with state := .running, pauseLimit := none }]
  rfl

/-! ## The report at a session -/

theorem applyReport_done (h : ses.state ≠ .starting) :
    applyReport p ses .done s = closeSession p (.plain .completed) s := by
  unfold applyReport
  cases hst : ses.state with
  | starting => exact absurd hst h
  | running => rfl
  | paused => rfl
  | ending => rfl

theorem applyReport_lost (h : ses.state ≠ .starting) (hms : ms = .ready ∨ ms = .doorOpen) :
    applyReport p ses ms s = loseCycle p s := by
  unfold applyReport
  rcases hms with rfl | rfl
  · cases hst : ses.state with
    | starting => exact absurd hst h
    | running => rfl
    | paused => rfl
    | ending => rfl
  · cases hst : ses.state with
    | starting => exact absurd hst h
    | running => rfl
    | paused => rfl
    | ending => rfl

theorem charge_completed (ses : Session) (pol : Policy) :
    ses.charge .completed pol = if ses.mclass = .washer then ses.net else ses.unusedCharge := by
  unfold Session.charge
  cases ses.mclass <;> rfl

/-- Settles O43. -/
theorem pauseAndDoneLimits : Obligations.PauseAndDoneLimits := by
  unfold Obligations.PauseAndDoneLimits
  refine ⟨fun s p ses hl hs hlaw hq hfree => ⟨fun hst hlimit => ?_, fun hst hlimit => ?_⟩, fun s p ms => ?_⟩
  · exact ⟨_, exec_pauseLimitExpiry hl hs hst hlimit, abandon_spec (s := s.fresh) hs hlaw hfree⟩
  · exact ⟨_, exec_doneLimitExpiry hl hs hst hlimit,
      closeSession_notice (s := s.fresh) hs hfree (.plain .doneTimeout) 21⟩
  · intro v u with1 t
    have hu : clearMarks p ms s = u := rfl
    have hvol : u.vol p = v := vol_clearMarks p ms s
    have hmoves : Moves s u := clearMarks_moves p ms .refl
    refine ⟨fun hs => ?_, fun ses hs => ?_⟩
    · have ht : t = _ := sessionTakesState_of_none hs
      rw [hu] at ht
      refine ⟨fun h => ?_, fun hms hwind hun hhalt => ?_, fun hms hwind hq => ?_⟩
      · rw [ht]
        split
        · next hms =>
          unfold unpaidRun
          rw [hvol, h.resolve_left (not_not.mpr hms)]
          rfl
        · rfl
      · rw [ht, if_pos hms]
        unfold unpaidRun
        rw [hvol, hwind, hun, hhalt]
        rfl
      · have hspec := unpaidRun_spec (s := u) (p := p) true (by rw [hvol, hwind]; rfl)
        rw [hvol] at hspec
        obtain ⟨hunpaid, hhalt, hroom, hfault⟩ := hspec
        rw [ht, if_pos hms]
        exact ⟨hunpaid, hhalt hq, hroom, hfault⟩
    · have ht : t = _ := sessionTakesState_of_some hs
      rw [hu] at ht
      have hreport : ses.startReport = false → t = applyReport p ses ms u := fun h => by
        rw [ht, h]
        rfl
      refine ⟨fun h => ?_, fun h hst => ?_, fun h hst hms => ?_, fun h hst hms => ?_, fun h hst hms => ?_,
        fun h hst hms => ?_, fun h hst hms hlaw hq => ?_, fun h hst hlaw hq hfree => ?_⟩
      · rw [ht, if_pos h]
        rfl
      · rw [hreport h]
        unfold applyReport
        rw [hst]
      · rw [hreport h]
        unfold applyReport
        rw [hst, hms]
      · rw [hreport h]
        unfold applyReport
        rw [hst, hms]
      · rw [hreport h]
        unfold applyReport
        rcases hms with hms | hms <;> rw [hst, hms]
      · refine (hreport h).trans ?_
        unfold applyReport
        rw [hst, hms]
        exact (resumeSession_eq (s := u) hs).trans (setVol_setVol p (fun _ => v) (fun v => { v with changed := true })
          (s.setSession p fun _ => some { ses with state := .running, pauseLimit := none }))
      · have ht' : t = pauseSession p u := by
          rw [hreport h]
          unfold applyReport
          rw [hst, hms]
        intro paused
        have hspec := pauseSession_spec (s := u) hs (heatLaw_moves hlaw hmoves) (by rw [hvol]; exact hq)
        obtain ⟨hroom, hchanged, hother, hses, hidle, hqueued, hgranted⟩ := hspec
        rw [hvol] at hses hidle hqueued hgranted
        rw [ht']
        refine ⟨(show RoomStep s u from rfl).trans hroom, hchanged, hother, hses, fun hg => ?_, hqueued, hgranted⟩
        exact (hidle hg).trans (setVol_setVol p (fun _ => v) (fun v => { v with changed := true })
          (s.setSession p fun _ => some (ses.paused s.ret.config.pauseLimit)))
      · intro declined
        refine ⟨fun hms => ?_, fun hms => ?_⟩
        · obtain ⟨hclosed, hdeclined, hwind⟩ := closeSession_spec (s := u) hs hfree (.plain .completed)
          rw [show ses.charge (Ending.plain .completed).reason (Ending.plain .completed).policy = _ from
            charge_completed ses _] at hclosed
          have hroom := room_closeSession (p := p) (.plain .completed) u
          have ht' : t = closeSession p (.plain .completed) u := (hreport h).trans (by rw [hms, applyReport_done hst])
          rw [← ht'] at hclosed hdeclined hwind hroom
          refine ⟨hclosed, (show RoomStep s u from rfl).trans hroom, hdeclined, hwind.trans ?_⟩
          rw [hvol, show v.windDown = ((s.vol p).windDown && (ms == .running || ms == .paused)) from rfl, hms]
          exact Bool.and_false _
        · obtain ⟨hclosed, hdeclined, hroom, hfault, hwind⟩ := closeSession_notice (s := u) hs hfree (.plain .cycleLost) 20
          have ht' : t = raiseNotice 20 (some p) (some u.ret.nextSettlement) (closeSession p (.plain .cycleLost) u) :=
            (hreport h).trans (applyReport_lost hst hms)
          rw [← ht'] at hclosed hdeclined hroom hfault hwind
          refine ⟨hclosed, RoomStep.trans (show RoomStep s u from rfl) hroom, hdeclined, hwind.trans ?_, hfault⟩
          rw [hvol, show v.windDown = ((s.vol p).windDown && (ms == .running || ms == .paused)) from rfl]
          rcases hms with rfl | rfl <;> exact Bool.and_false _

end Sys2Proof.Machine
end

section
/-! HALT and HEAT_OFF at a position without a session, and what makes a position safe (R37, R38, R40, R149). -/

namespace Sys2Proof.Machine

variable {s t u : State} {p q : PosIx} {ses : Session}

/-! ## Reports at a position without a session -/

/-- Without a session no report of a removed order changes the queue of its position (R35). -/
theorem orders_reportCancelled_of_none (wd : PosIx → State → State) (o : Order) (hs : s.session p = none)
    (hnodup : s.heat.queue.Nodup) : ((reportCancelled wd p o s).vol p).orders = (s.vol p).orders := by
  unfold reportCancelled
  split
  · split
    · rw [cancelIfStarting, State.sessionIs, hs]
      rfl
    · rfl
  · split
    · rw [extensionFailWith, hs]
    · rfl
  · have hsame : (activatePending (endGrant p s)).session p = none :=
      ((grantStep_activatePending _).session p).trans hs
    have hout : p ∉ (activatePending (endGrant p s)).heat.queue := by
      rw [heat_activatePending]
      exact fun hmem => ((hnodup.mem_erase_iff).mp hmem).1 rfl
    unfold heatOnCancelled
    split
    · dsimp only
      rw [State.mayQueue, not_running_of_none hsame, Bool.false_and, Bool.false_and, Bool.and_false,
        if_neg Bool.false_ne_true,
        (evaluate_idle hout).1, vol_activatePending, endGrant_eq, vol_grantEnded]
      rfl
    · rfl
  all_goals rfl

theorem not_cancels_display (w : Urgent) {b : OrderBody} (h : b.display = true) :
    w.cancels (newOrder b) = false := by
  have hb : b = .disable ∨ b = .enable := by
    cases b with
    | disable => exact .inl rfl
    | enable => exact .inr rfl
    | _ => exact nomatch h
  rcases hb with rfl | rfl <;> cases w <;> rfl

/-- An owed display order that is served is no order that a HALT or HEAT_OFF takes away (R37 to R39). -/
theorem countP_serveOwed (w : Urgent) (p : PosIx) (s : State) :
    ((serveOwed p s).vol p).orders.countP w.cancels ≤ (s.vol p).orders.countP w.cancels := by
  unfold serveOwed
  split
  · unfold askDisplay
    dsimp only
    rw [State.vol_setVol, if_pos rfl]
    have hbody : (if s.outOfOrder p then OrderBody.disable else .enable).display = true := by split <;> rfl
    unfold queueDisplay
    dsimp only
    split
    · rw [List.countP_append, List.countP_singleton, not_cancels_display w hbody]
      exact List.Sublist.countP_le List.filter_sublist
    · exact List.Sublist.countP_le List.filter_sublist
  · exact Nat.le_refl _

/-- A step at a position without a session brings no order that a HALT or HEAT_OFF takes away. -/
theorem countP_makeStep (w : Urgent) (wd : PosIx → State → State) (n : UrgentStep) (hs : s.session p = none)
    (hnodup : s.heat.queue.Nodup) :
    ((makeStep wd p n s).vol p).orders.countP w.cancels ≤ n.orders.countP w.cancels := by
  have hset : ((s.setVol p fun v => { v with orders := n.orders }).vol p).orders = n.orders := by
    rw [State.vol_setVol, if_pos rfl]
  unfold makeStep afterRemoval
  split
  · rw [hset]
  · split
    · rw [State.vol_setVol, if_pos rfl]
      exact (congrArg (List.countP w.cancels) hset).le
    · refine (countP_serveOwed w p _).trans ?_
      rw [orders_reportCancelled_of_none wd _ (by exact hs) (by exact hnodup), hset]

/-! ## HALT and HEAT_OFF -/

theorem not_cancels_newOrder (w : Urgent) : w.cancels (newOrder w.body) = false := by cases w <;> rfl

theorem countP_place {w : Urgent} {q : List Order} (h : q.countP w.cancels = 0) :
    (w.place q).countP w.cancels = 0 := by
  refine List.countP_eq_zero.mpr fun o ho => ?_
  rcases mem_place.mp ho with rfl | hmem
  · rw [not_cancels_newOrder]; exact Bool.false_ne_true
  · exact List.countP_eq_zero.mp h o hmem

theorem countP_makeRoom {w : Urgent} {q : List Order} (h : q.countP w.cancels = 0) :
    (makeRoom q).1.countP w.cancels = 0 :=
  Nat.le_zero.mp (((makeRoom_sublist q).countP_le).trans h.le)

theorem countP_placeAtOnce {w : Urgent} {q : List Order} (h : q.countP w.cancels = 0) :
    (w.placeAtOnce q).orders.countP w.cancels = 0 := by
  unfold Urgent.placeAtOnce
  split
  · exact h
  · dsimp only
    split
    · exact countP_place (countP_makeRoom h)
    · exact countP_makeRoom h

/-- At a position without a session a HALT takes every order away that it may, and a HALT, or a HEAT_OFF that no
HEAT_ON absorbs, comes to stand (R37, R38, R40). -/
theorem stands_askUrgentFor {wd : PosIx → State → State} (hw : ∀ s, Told p s (wd p s))
    (hm : ∀ p {s₀ s : State}, Moves s₀ s → Moves s₀ (wd p s)) (w : Urgent) (k : Nat) : ∀ {s : State},
    s.session p = none → HeatLaw s → QueueLaw (s.vol p).orders → (s.vol p).orders.countP w.cancels ≤ k →
    (w = .heatOff → (s.vol p).orders.countP w.cancels = 0) →
    ((askUrgentFor wd w p k s).vol p).orders.countP w.cancels = 0
      ∧ ∃ o ∈ ((askUrgentFor wd w p k s).vol p).orders, o.body = w.body := by
  have placed : ∀ (n : UrgentStep) {s : State}, s.session p = none → HeatLaw s → n.orders.countP w.cancels = 0 →
      (∃ o ∈ n.orders, o.body = w.body) → ((makeStep wd p n s).vol p).orders.countP w.cancels = 0
        ∧ ∃ o ∈ ((makeStep wd p n s).vol p).orders, o.body = w.body := fun n s hs hl hcount hstand =>
    ⟨Nat.le_zero.mp ((countP_makeStep w wd n hs hl.1).trans hcount.le),
     ((told_afterRemoval hw _ _).kept.pos p).stands w.body (by cases w; exact .inl rfl; exact .inr rfl)
      (stands_setOrders hstand)⟩
  induction k with
  | zero =>
    intro s hs hl hq hk _
    exact placed _ hs hl (countP_placeAtOnce (Nat.le_zero.mp hk)) (stands_placeAtOnce hq)
  | succ k ih =>
    intro s hs hl hq hk hoff
    have hmoves : Moves s (makeStep wd p (w.step (s.vol p).orders) s) :=
      makeStep_moves wd hm p (w.step (s.vol p).orders) (QueueLaw.step _) .refl
    have hlaw := heatLaw_moves hl hmoves
    have hqueue := queueLaw_moves (p := p) hmoves hq
    have hgone : (makeStep wd p (w.step (s.vol p).orders) s).session p = none :=
      (((told_makeStep hw _ s (posKept_step w _)).calm (State.quiet_of_none hs)).session p).trans hs
    have hle := countP_makeStep (p := p) w wd (w.step (s.vol p).orders) hs hl.1
    rcases w.step_cases (s.vol p).orders with ⟨before, o, after, hb, hc, -, he⟩ | ⟨hnone, h⟩
    · have hhalt : w = .halt := by
        cases w with
        | halt => rfl
        | heatOff =>
          have hzero := List.countP_eq_zero.mp (hoff rfl) o (by rw [hb]; simp)
          exact absurd hc hzero
      rw [askUrgentFor_next _ _ _ _ _ (by rw [he, hhalt]; rfl)]
      refine ih hgone hlaw hqueue ?_ fun e => by rw [hhalt] at e; exact nomatch e
      refine hle.trans ?_
      rw [hb, List.countP_append, List.countP_cons_of_pos hc] at hk
      rw [he, List.countP_append]
      omega
    · have hzero : (s.vol p).orders.countP w.cancels = 0 :=
        List.countP_eq_zero.mpr fun o ho => by rw [hnone o ho]; exact Bool.false_ne_true
      rcases h with ⟨hmerge, he⟩ | ⟨-, -, he⟩ | ⟨hmerge, hfull, he⟩
      · rw [askUrgentFor_last _ _ _ _ _ (by rw [he]), he]
        exact placed _ hs hl hzero (exists_of_merges hmerge)
      · rw [askUrgentFor_last _ _ _ _ _ (by rw [he]), he]
        exact placed _ hs hl (countP_place hzero) ⟨newOrder w.body, mem_place.mpr (.inl rfl), rfl⟩
      · rw [askUrgentFor_next _ _ _ _ _ (by rw [he, exists_displaceable hq hfull hmerge]; rfl)]
        have hnew : ((makeStep wd p (w.step (s.vol p).orders) s).vol p).orders.countP w.cancels = 0 := by
          refine Nat.le_zero.mp (hle.trans ?_)
          rw [he]
          exact (countP_makeRoom hzero).le
        exact ih hgone hlaw hqueue (hnew.le.trans (Nat.zero_le _)) fun _ => hnew

/-! ## Making a position safe -/

/-- A HALT takes an undelivered HEAT_ON away. -/
theorem no_heatOn_of_halted {q : List Order} (h : q.countP Urgent.halt.cancels = 0) :
    ∀ o ∈ q, o.tag = none → o.body ≠ .heatOn := fun o ho htag hbody => by
  refine List.countP_eq_zero.mp h o ho ?_
  simp [Urgent.cancels, Order.undelivered, htag, hbody, OrderBody.strippable]

/-- HALT and then HEAT_OFF at a position without a session: both stand (R37, R38, R149). -/
theorem halted_spec (hs : s.session p = none) (hl : HeatLaw s) (hq : QueueLaw (s.vol p).orders) :
    let t := askHeatOff p (askHalt p s)
    GrantStep s t ∧ Kept p s t ∧ (t.vol p).haltStands = true ∧ (t.vol p).heatOffStands = true
    ∧ ∀ o ∈ (t.vol p).orders, o.tag = none → o.body ≠ .heatOn := by
  intro t
  have hcount : (s.vol p).orders.countP Urgent.halt.cancels ≤ 12 := 
    List.countP_le_length.trans (hq.1.trans (by decide))
  obtain ⟨hzero, hhalt⟩ := stands_askUrgentFor (told_withdraw p) (fun p {_ _} h => withdraw_moves p h) .halt 12 hs hl hq
    hcount fun e => nomatch e
  have thalt := told_askHalt p s
  have hstep := thalt.calm (State.quiet_of_none hs)
  have hgone : (askHalt p s).session p = none := (hstep.session p).trans hs
  have hoff := no_heatOn_of_halted hzero
  have hnone : ((askHalt p s).vol p).orders.countP Urgent.heatOff.cancels = 0 :=
    List.countP_eq_zero.mpr fun o ho => by rw [not_cancels_iff.mpr hoff o ho]; exact Bool.false_ne_true
  obtain ⟨hzero', hstands⟩ := stands_askUrgentFor (told_withdraw p) (fun p {_ _} h => withdraw_moves p h) .heatOff 12
    hgone (heatLaw_moves hl (askHalt_moves p .refl)) (queueLaw_moves (askHalt_moves p .refl) hq)
    (hnone.le.trans (Nat.zero_le _)) fun _ => hnone
  have toff := told_askHeatOff p (askHalt p s)
  refine ⟨hstep.trans (toff.calm (State.quiet_of_none hgone)), thalt.kept.trans toff.kept,
    haltStands_iff.mpr ((toff.kept.pos p).stands .halt (.inl rfl) hhalt), heatOffStands_iff.mpr hstands, ?_⟩
  exact not_cancels_iff.mp fun o ho => Bool.eq_false_iff.mpr (List.countP_eq_zero.mp hzero' o ho)

/-- A position without a session that is made safe (R149). -/
theorem makeSafe_spec (hs : s.session p = none) (hl : HeatLaw s) (hq : QueueLaw (s.vol p).orders) :
    let t := makeSafe p s
    GrantStep s t ∧ Kept p s t ∧ (t.vol p).haltStands = true ∧ (t.vol p).heatOffStands = true
    ∧ (t.vol p).grant ≠ .granted := by
  obtain ⟨hstep, hkept, hhalt, hoff, -⟩ := halted_spec hs hl hq
  have hmoves : Moves s (askHeatOff p (askHalt p s)) := askHeatOff_moves p (askHalt_moves p .refl)
  have hgone := (hstep.session p).trans hs
  have told := told_withdraw p (askHeatOff p (askHalt p s))
  obtain ⟨hends, -, -⟩ := withdraw_ends (heatCore_of_law (heatLaw_moves hl hmoves)) (queueLaw_moves hmoves hq)
    fun h => by rw [not_running_of_none hgone] at h; exact nomatch h.2.1
  refine ⟨hstep.trans (told.calm (State.quiet_of_none hgone)), hkept.trans told.kept,
    haltStands_iff.mpr ((told.kept.pos p).stands .halt (.inl rfl) (haltStands_iff.mp hhalt)),
    heatOffStands_iff.mpr ((told.kept.pos p).stands .heatOff (.inr rfl) (heatOffStands_iff.mp hoff)), fun h => ?_⟩
  rcases hends with e | e
  · exact nomatch e.symm.trans h
  · exact nomatch e.symm.trans h

end Sys2Proof.Machine
end

section
/-! Position faults (R30, R118, R138, R139, R143 to R152). -/

namespace Sys2Proof.Machine

variable {s t u : State} {p q : PosIx} {ses : Session} {code : Nat} {c : FaultClass}

/-! ## A fault that becomes active -/

theorem RoomStep.record (h : RoomStep s t) (q : PosIx) : t.record q = s.record q := by
  unfold RoomStep at h
  rw [h]
  rfl

theorem RoomStep.nextFault (h : RoomStep s t) : t.ret.nextFault = s.ret.nextFault := by
  unfold RoomStep at h
  rw [h]

/-- The fault that a code makes active (R148). -/
def FaultClass.active (c : FaultClass) (code : Nat) : ActiveFault :=
  { code := code, severity := c.severity, autoClear := c.autoClear }

/-- Only the records and the volatile state of positions changed. -/
def PositionStep (s t : State) : Prop :=
  t = { s with trail := t.trail, pos := t.pos, ret := { s.ret with positions := t.ret.positions } }

theorem PositionStep.session (h : PositionStep s t) (q : PosIx) : t.session q = s.session q := by
  unfold PositionStep at h
  rw [h]
  rfl

theorem PositionStep.closed {charge : Nat} {reason : EndReason} {n : Option Nat} (h : PositionStep s t)
    (k : SessionClosed t u p ses charge reason n) : SessionClosed s u p ses charge reason n := by
  unfold PositionStep at h
  rw [h] at k
  exact k

theorem PositionStep.cancelled (h : PositionStep s t) (k : SessionCancelled t u p ses) : SessionCancelled s u p ses := by
  unfold PositionStep at h
  rw [h] at k
  exact k

theorem PositionStep.declined {x : TermIx} {tag : Byte} {reason : DeclineReason} {id : CardId} (h : PositionStep s t)
    (k : Declined t u x tag reason id) : Declined s u x tag reason id := by
  unfold PositionStep at h
  rw [h] at k
  exact k

theorem PositionStep.number (h : PositionStep s t) : t.ret.nextSettlement = s.ret.nextSettlement := by
  unfold PositionStep at h
  rw [h]

theorem PositionStep.numberFree (h : PositionStep s t) (k : NumberFree s) : NumberFree t := by
  unfold PositionStep at h
  rw [h]
  exact k

/-- What stands of the store where only records of positions changed. -/
theorem PositionStep.store (h : PositionStep s t) : t.ret.cards = s.ret.cards ∧ t.ret.settlements = s.ret.settlements
    ∧ t.ret.nextFault = s.ret.nextFault ∧ t.minuteNow = s.minuteNow := by
  unfold PositionStep at h
  rw [h]
  exact ⟨rfl, rfl, rfl, rfl⟩

/-- What making a fault active leaves: no session, card, settlement record or fault record changes (R148 step 1). -/
theorem setActive_spec (p : PosIx) (code : Nat) (c : FaultClass) (s : State) :
    PositionStep s (setActive p code c s) ∧ Kept p s (setActive p code c s)
      ∧ ((setActive p code c s).vol p).changed = true
      ∧ ∀ q, (setActive p code c s).record q
        = if p = q then { s.record p with fault := some (c.active code) } else s.record q := by
  have hset : Kept p s (s.setRecord p fun r => { r with fault := some (c.active code) }) := .of_same p rfl rfl
  have hmarked : ∀ w : State, ((w.markChanged p).vol p).changed = true := fun w => by
    rw [State.markChanged, State.vol_setVol, if_pos rfl]
  have hrecord := fun q => State.record_setRecord p q (fun r => { r with fault := some (c.active code) }) s
  unfold setActive withDisplay
  dsimp only
  split
  · exact ⟨rfl, (hset.trans (told_askDisplay p _).kept).trans (told_markChanged p _).kept, hmarked _, hrecord⟩
  · exact ⟨rfl, hset.trans (told_markChanged p _).kept, hmarked _, hrecord⟩

/-! ## The end of a session by a fault -/

theorem endByFault_of_none (hs : s.session p = none) : endByFault p code c s = (s, none) := by
  unfold endByFault
  rw [hs]

theorem endByFault_starting (hs : s.session p = some ses) (hst : ses.state = .starting) :
    endByFault p code c s = (cancelSession p .machineFault s, none) := by
  unfold endByFault
  rw [hs]
  dsimp only
  rw [hst]

/-- How a fault ends a session (R119, R148). -/
def FaultClass.ending (c : FaultClass) (code : Nat) : Ending :=
  { reason := .fault, policy := c.policy, code := some code, safety := c.severity == .safety }

theorem endByFault_closed (hs : s.session p = some ses) (hst : ses.state ≠ .starting) :
    endByFault p code c s = (closeSession p (c.ending code) s, some s.ret.nextSettlement) := by
  unfold endByFault
  rw [hs]
  dsimp only
  cases h : ses.state with
  | starting => exact absurd h hst
  | running => rfl
  | paused => rfl
  | ending => rfl

theorem sessions_closeSession (hs : s.session p = some ses) (e : Ending) (q : PosIx) :
    (closeSession p e s).session q = if q = p then none else s.session q := by
  rw [State.session, ret_closeSession hs]
  exact ((grantStep_closed s ses p e).session q).trans (session_captured s ses p q e)

/-- A fault leaves its position without a session, and touches no other (R148 step 2). -/
theorem endByFault_spec (p : PosIx) (code : Nat) (c : FaultClass) (s : State) :
    (endByFault p code c s).1.session p = none ∧ RoomStep s (endByFault p code c s).1
    ∧ (∀ q, q ≠ p → (endByFault p code c s).1.session q = s.session q)
    ∧ ((s.vol p).changed = true → ((endByFault p code c s).1.vol p).changed = true) := by
  cases hs : s.session p with
  | none =>
    rw [endByFault_of_none hs]
    exact ⟨hs, .refl s, fun _ _ => rfl, id⟩
  | some ses =>
    by_cases hst : ses.state = .starting
    · rw [endByFault_starting hs hst]
      have hstirred := stirred_cancelSession (p := p) .machineFault s
      exact ⟨(cancelSession_spec hs .machineFault).1.1.1, hstirred.room, hstirred.sessions,
        (hstirred.kept.pos p).changed⟩
    · rw [endByFault_closed hs hst]
      refine ⟨?_, room_closeSession _ s, fun q hq => ?_, fun _ => ?_⟩
      · rw [sessions_closeSession hs, if_pos rfl]
      · rw [sessions_closeSession hs, if_neg hq]
      · rw [vol_closeSession hs]

/-! ## A fault on a position with none -/

/-- The record that becoming active makes newest (R148 step 3). -/
theorem becomeActive_spec (p : PosIx) (code : Nat) (c : FaultClass) (detail : Option MissKind) (s : State) :
    let t := becomeActive p code c detail s
    t.session p = none ∧ (∀ q, q ≠ p → t.session q = s.session q) ∧ (t.vol p).changed = true
    ∧ (∀ q, t.record q = if p = q then { s.record p with fault := some (c.active code) } else s.record q)
    ∧ t.ret.faults.getLast? = some
        { number := s.ret.nextFault, code := code, position := some p, severity := c.severity
          minute := s.minuteNow, settlement := (endByFault p code c (setActive p code c s)).2, detail := detail } := by
  obtain ⟨hstep, -, hchanged, hrecord⟩ := setActive_spec p code c s
  obtain ⟨hgone, hroom, hother, hkept⟩ := endByFault_spec p code c (setActive p code c s)
  obtain ⟨-, -, hnumber, hminute⟩ := hstep.store
  refine ⟨hgone, fun q hq => (hother q hq).trans (hstep.session q), hkept hchanged,
    fun q => (hroom.record q).trans (hrecord q), ?_⟩
  rw [← hnumber, ← hminute]
  exact hroom.lastFault ..

theorem raiseFault_notice (detail : Option MissKind) (h : (s.classOf code).severity = .notice) :
    raiseFault p code detail s = appendFault code (some p) .notice none none s := by
  unfold raiseFault
  dsimp only
  rw [h]
  rfl

theorem raiseFault_recorded {f : ActiveFault} (detail : Option MissKind) (h : (s.classOf code).severity = .lockout)
    (hf : (s.record p).fault = some f) : raiseFault p code detail s
      = appendFault code (some p) .lockout none detail s := by
  unfold raiseFault
  dsimp only
  rw [h, hf]

/-- A LOCKOUT or SAFETY on a position with no active fault (R148, R149). -/
theorem raiseFault_active (detail : Option MissKind) (h : (s.classOf code).severity ≠ .notice)
    (hf : (s.record p).fault = none) : raiseFault p code detail s
      = (let t := becomeActive p code (s.classOf code) detail s
         if (s.classOf code).severity = .safety then makeSafe p t else t) := by
  unfold raiseFault
  dsimp only
  rw [hf]
  cases hc : (s.classOf code).severity with
  | notice => exact absurd hc h
  | lockout => rw [if_neg fun e => nomatch e]
  | safety => rw [if_pos rfl]

/-- A SAFETY fault over an active fault (R150). -/
theorem raiseFault_over {f : ActiveFault} (detail : Option MissKind) (h : (s.classOf code).severity = .safety)
    (hf : (s.record p).fault = some f) : raiseFault p code detail s
      = if f.severity = .safety then askHeatOff p (askHalt p (appendFault code (some p) .safety none detail s))
        else makeSafe p (appendFault code (some p) .safety none detail (setActive p code (s.classOf code) s)) := by
  unfold raiseFault
  dsimp only
  rw [h, hf]
  dsimp only
  cases f.severity with
  | notice => rw [if_neg fun e => nomatch e]
  | lockout => rw [if_neg fun e => nomatch e]
  | safety => rw [if_pos rfl]

/-- Behind a fault that became active only queues, grants and budgets change, and a SAFETY fault makes the position
safe (R149). -/
theorem raiseFault_active_spec (detail : Option MissKind) (h : (s.classOf code).severity ≠ .notice)
    (hf : (s.record p).fault = none) (hl : HeatLaw s) (hq : QueueLaw (s.vol p).orders) :
    GrantStep (becomeActive p code (s.classOf code) detail s) (raiseFault p code detail s)
    ∧ Kept p (becomeActive p code (s.classOf code) detail s) (raiseFault p code detail s)
    ∧ ((s.classOf code).severity = .safety → (((raiseFault p code detail s).vol p).haltStands = true
      ∧ ((raiseFault p code detail s).vol p).heatOffStands = true)
      ∧ ((raiseFault p code detail s).vol p).grant ≠ .granted) := by
  have hmoves : Moves s (becomeActive p code (s.classOf code) detail s) := becomeActive_moves p code _ detail .refl
  rw [raiseFault_active detail h hf]
  dsimp only
  split
  · obtain ⟨hstep, hkept, hhalt, hoff, hgrant⟩ := makeSafe_spec (becomeActive_spec p code _ detail s).1
      (heatLaw_moves hl hmoves) (queueLaw_moves hmoves hq)
    exact ⟨hstep, hkept, fun _ => ⟨⟨hhalt, hoff⟩, hgrant⟩⟩
  · next hs => exact ⟨.refl _, .refl p _, fun hc => absurd hc hs⟩

/-! ## What a fault does to the session -/

theorem becomeActive_eq (p : PosIx) (code : Nat) (c : FaultClass) (detail : Option MissKind) (s : State) :
    becomeActive p code c detail s = appendFault code (some p) c.severity
      (endByFault p code c (setActive p code c s)).2 detail (endByFault p code c (setActive p code c s)).1 := rfl

/-- A fault ends a STARTING session (R102, R148 step 2). -/
theorem becomeActive_starting (detail : Option MissKind) (hs : s.session p = some ses) (hst : ses.state = .starting) :
    SessionCancelled s (endByFault p code c (setActive p code c s)).1 p ses
    ∧ Declined s (becomeActive p code c detail s) ses.term ses.reqTag .machineFault ses.cardId
    ∧ (endByFault p code c (setActive p code c s)).2 = none := by
  obtain ⟨hpos, -, -, -⟩ := setActive_spec p code c s
  have hses : (setActive p code c s).session p = some ses := (hpos.session p).trans hs
  obtain ⟨hcancelled, hdeclined, -⟩ := cancelSession_spec hses .machineFault
  rw [becomeActive_eq, endByFault_starting hses hst]
  exact ⟨hpos.cancelled hcancelled, hpos.declined hdeclined, rfl⟩

/-- The charge of a close by a fault (R118). -/
theorem charge_fault (ses : Session) (pol : Policy) : ses.charge .fault pol
    = match pol with
      | .full => 0
      | .unused => ses.unusedCharge
      | .none => ses.wholeCharge := by
  cases pol <;> rfl

/-- A fault closes any other session under its policy (R118, R119, R148 step 2). -/
theorem becomeActive_closed (detail : Option MissKind) (hs : s.session p = some ses) (hst : ses.state ≠ .starting)
    (hl : HeatLaw s) (hq : QueueLaw (s.vol p).orders) (hfree : NumberFree s) :
    let t := becomeActive p code c detail s
    SessionClosed s t p ses (ses.charge .fault c.policy) .fault (some code)
    ∧ (∀ x, ses.ext = some x → Declined s t x.term x.reqTag .machineFault ses.cardId)
    ∧ (endByFault p code c (setActive p code c s)).2 = some s.ret.nextSettlement
    ∧ Cold p t ∧ (t.vol p).windDown = (decide (c.severity = .safety) || (s.vol p).windDown) := by
  obtain ⟨hpos, hkept, -, -⟩ := setActive_spec p code c s
  have hses : (setActive p code c s).session p = some ses := (hpos.session p).trans hs
  have hmoves : Moves s (setActive p code c s) := setActive_moves p code c .refl
  obtain ⟨hclosed, hdeclined, hwind⟩ := closeSession_spec hses (hpos.numberFree hfree) (c.ending code)
  have hcold := cold_closeSession hses (heatLaw_moves hl hmoves) (queueLaw_moves hmoves hq) (c.ending code)
  have hsafe : (c.ending code).windsDown = decide (c.severity = .safety) := by
    change (c.severity == .safety) = _
    rw [beq_eq_decide]
  intro t
  rw [show t = _ from becomeActive_eq p code c detail s, endByFault_closed hses hst, hpos.number]
  refine ⟨hpos.closed hclosed, fun x hx => hpos.declined (hdeclined x hx), rfl, hcold.of_same rfl rfl rfl,
    hwind.trans ?_⟩
  rw [hsafe, windDown_of_marks (hkept.pos p).marks]

/-- A SAFETY fault over an active fault, with no session (R150). -/
theorem raiseFault_over_spec {f : ActiveFault} (detail : Option MissKind) (h : (s.classOf code).severity = .safety)
    (hf : (s.record p).fault = some f) (hs : s.session p = none) (hl : HeatLaw s) (hq : QueueLaw (s.vol p).orders) :
    ∃ w, GrantStep w (raiseFault p code detail s)
      ∧ (w = appendFault code (some p) .safety none detail s ∨ w
        = appendFault code (some p) .safety none detail (setActive p code (s.classOf code) s))
      ∧ (w.record p).fault = some (if f.severity = .safety then f else (s.classOf code).active code)
      ∧ (∀ q, q ≠ p → w.record q = s.record q)
      ∧ ((raiseFault p code detail s).vol p).haltStands = true
      ∧ ((raiseFault p code detail s).vol p).heatOffStands = true
      ∧ (f.severity = .lockout → ((raiseFault p code detail s).vol p).grant ≠ .granted) := by
  rw [raiseFault_over detail h hf]
  by_cases hsev : f.severity = .safety
  · rw [if_pos hsev, if_pos hsev]
    obtain ⟨hstep, -, hhalt, hoff, -⟩ := halted_spec (s := appendFault code (some p) .safety none detail s) (p := p) hs
      (heatLaw_moves hl (appendFault_moves _ _ _ _ _ .refl)) hq
    exact ⟨_, hstep, .inl rfl, hf, fun _ _ => rfl, hhalt, hoff, fun e => by rw [hsev] at e; exact nomatch e⟩
  · rw [if_neg hsev, if_neg hsev]
    obtain ⟨hpos, -, -, hrecord⟩ := setActive_spec p code (s.classOf code) s
    have hmoves : Moves s (appendFault code (some p) .safety none detail (setActive p code (s.classOf code) s)) :=
      appendFault_moves _ _ _ _ _ (setActive_moves p code _ .refl)
    obtain ⟨hstep, -, hhalt, hoff, hgrant⟩ := makeSafe_spec (p := p)
      (s := appendFault code (some p) .safety none detail (setActive p code (s.classOf code) s)) ((hpos.session p).trans hs)
      (heatLaw_moves hl hmoves) (queueLaw_moves hmoves hq)
    refine ⟨_, hstep, .inr rfl, ?_, fun q hq => (hrecord q).trans (if_neg (Ne.symm hq)), hhalt, hoff, fun _ => hgrant⟩
    exact (congrArg PosRecord.fault ((hrecord p).trans (if_pos rfl)) :)

/-! ## What a VALID STATE finds -/

theorem setVol_same (p : PosIx) (f : PosState → PosState) (h : f (s.vol p) = s.vol p) : s.setVol p f = s := by
  have hv : f s.pos[p.val] = s.pos[p.val] := h
  unfold State.setVol
  rw [hv, Vector.set_getElem_self]

theorem faultTakesField_nonzero (ms : MachineState) (h : code ≠ 0) : faultTakesField p code ms s
    = if code = (s.vol p).prevFault then s
      else raiseFault p code none (s.setVol p fun v => { v with prevFault := code }) := by
  unfold faultTakesField
  dsimp only
  rw [if_neg h]
  split
  · next e => exact setVol_same p _ (by rw [e])
  · rfl

/-- The class of a STATE against the class configured (R30, R144). -/
theorem faultTakesClass_spec (s : State) (p : PosIx) (cls : MachineClass) :
    let differs : Prop := ∃ c, (s.record p).config = some c ∧ c.cls ≠ cls
    let marked (m : Bool) : State := s.setVol p fun v => { v with mismatch := m }
    (differs → (s.vol p).mismatch = false → faultTakesClass p cls s = raiseFault p 18 none (marked true))
    ∧ (differs → (s.vol p).mismatch = true → faultTakesClass p cls s = s)
    ∧ (¬ differs → faultTakesClass p cls s = marked false) := by
  intro differs marked
  have hdiffers : (s.record p).config.any (fun c => c.cls != cls) = true ↔ differs := by
    rw [Option.any_eq_true]
    simp [differs]
  unfold faultTakesClass
  refine ⟨fun h hm => ?_, fun h hm => ?_, fun h => if_neg (mt hdiffers.mp h)⟩
  · rw [if_pos (hdiffers.mpr h), hm]
    rfl
  · rw [if_pos (hdiffers.mpr h), hm]
    rfl

/-- Field 0 of a STATE (R152). -/
theorem faultTakesField_zero (s : State) (p : PosIx) (ms : MachineState) :
    let v : PosState := { s.vol p with prevFault := 0 }
    let clears (f : ActiveFault) : Prop := f.code ≤ 15 ∧ f.autoClear = true ∧ ms = .ready
    let q := queueDisplay .enable v.orders
    ((∀ f, (s.record p).fault = some f → ¬ clears f) →
      faultTakesField p 0 ms s = { s with pos := s.pos.set p.val v })
    ∧ ∀ f, (s.record p).fault = some f → clears f →
      faultTakesField p 0 ms s = { s with
        trail := s.ret :: s.trail
        ret := { s.ret with positions := s.ret.positions.set p.val { s.record p with fault := none } }
        pos := s.pos.set p.val
          (if (s.record p).oos then { v with changed := true }
           else { v with orders := q.1, owed := q.2, changed := true }) } := by
  intro v clears q
  have hclears : ∀ f : ActiveFault, (decide (f.code ≤ 15) && f.autoClear && ms == .ready) = true ↔ clears f :=
    fun f => by simp [clears, and_assoc]
  unfold faultTakesField
  dsimp only
  rw [if_pos rfl]
  let w := s.setVol p fun v => { v with prevFault := 0 }
  have hvol : w.vol p = v := (State.vol_setVol p p _ s).trans (if_pos rfl)
  refine ⟨fun h => ?_, fun f hf hc => ?_⟩
  · split
    · next f hf => rw [if_neg (mt (hclears f).mp (h f hf))]; rfl
    · rfl
  · rw [show ((s.setVol p fun v => { v with prevFault := 0 }).record p).fault = some f from hf]
    dsimp only
    rw [if_pos ((hclears f).mpr hc)]
    have heq := clearActive_eq (s := w) (p := p) hf
    dsimp only at heq
    rw [hvol] at heq
    exact heq.trans (congrArg (fun pos => ({ s with
      trail := s.ret :: s.trail
      ret := { s.ret with positions := s.ret.positions.set p.val { s.record p with fault := none } }
      pos := pos } : State)) (Vector.set_set ..))

/-- The test for a heat violation (R138, R139). -/
theorem testViolation_spec (s : State) (p : PosIx) (heaterOn : Bool) :
    let v := s.vol p
    let stands : Prop := ∃ o ∈ v.orders, o.body = .heatOff
    let tested : Prop := v.armed = true ∧ 0 < s.heaterDemand p
    let violating : Prop := heaterOn = true ∧ v.grant ≠ .granted ∧ ¬ stands
    let counted (n : Nat) : State := { s with pos := s.pos.set p.val { v with violations := n } }
    let t := testViolation p heaterOn s
    (¬ tested → t = s)
    ∧ (tested → ¬ violating → t = counted 0)
    ∧ (tested → violating → v.violations = 0 → t = counted 1)
    ∧ (tested → violating → v.violations = 1 → t = raiseFault p 17 none (counted 2))
    ∧ (tested → violating → 2 ≤ v.violations → t = counted 2) := by
  intro v stands tested violating counted t
  have htested : s.heatTested p = true ↔ tested := by simp [State.heatTested, tested, v]
  have hviolating : s.heatViolating p heaterOn = true ↔ violating := by
    have hstands : v.heatOffStands = true ↔ stands := heatOffStands_iff
    change (heaterOn && v.grant != .granted && !v.heatOffStands) = true ↔ _
    rw [Bool.and_eq_true, Bool.and_eq_true, Bool.not_eq_true', ← Bool.not_eq_true, hstands, bne_iff_ne, and_assoc]
  have hcount : ∀ n, min (v.violations + 1) 2 = n →
      (s.setVol p fun v => { v with violations := min (v.violations + 1) 2 }) = counted n := fun n hn =>
    congrArg (fun n => counted n) hn
  have hviolated : tested → violating → t = if v.violations = 1 then raiseFault p 17 none (counted 2)
      else counted (min (v.violations + 1) 2) := fun h hv => by
    have ht : t = _ := if_neg (by rw [htested.mpr h]; exact Bool.false_ne_true)
    rw [ht, if_pos (hviolating.mpr hv)]
    exact ite_congr rfl (fun e => congrArg (raiseFault p 17 none) (hcount 2 (by rw [e]; rfl))) fun _ => rfl
  refine ⟨fun h => if_pos ?_, fun h hv => ?_, fun h hv hn => ?_, fun h hv hn => ?_, fun h hv hn => ?_⟩
  · rw [Bool.eq_false_iff.mpr (mt htested.mp h)]
    rfl
  · have ht : t = _ := if_neg (by rw [htested.mpr h]; exact Bool.false_ne_true)
    rw [ht, if_neg (mt hviolating.mp hv)]
    rfl
  · rw [hviolated h hv, hn]
    rfl
  · rw [hviolated h hv, if_pos hn]
  · rw [hviolated h hv, if_neg (by omega), Nat.min_eq_right (by omega)]

/-! ## The obligation -/

/-- A LOCKOUT or SAFETY on a position with no active fault, in the words of the obligation (R148, R149). -/
theorem raiseFault_active_effects (detail : Option MissKind) (h : (s.classOf code).severity ≠ .notice)
    (hf : (s.record p).fault = none) (hl : HeatLaw s) (hq : QueueLaw (s.vol p).orders) :
    let c := s.classOf code
    let t := raiseFault p code detail s
    (t.record p).fault = some (c.active code)
    ∧ (∀ q, q ≠ p → t.record q = s.record q ∧ t.session q = s.session q)
    ∧ (t.vol p).changed = true ∧ t.session p = none
    ∧ (∀ n, (endByFault p code c (setActive p code c s)).2 = n → t.ret.faults.getLast? = some
        { number := s.ret.nextFault, code := code, position := some p, severity := c.severity
          minute := s.minuteNow, settlement := n, detail := detail }) := by
  obtain ⟨hgone, hother, hchanged, hrecord, hlast⟩ := becomeActive_spec p code (s.classOf code) detail s
  obtain ⟨hstep, hkept, -⟩ := raiseFault_active_spec detail h hf hl hq
  refine ⟨?_, fun q hq => ⟨(hstep.record q).trans ((hrecord q).trans (if_neg (Ne.symm hq))),
    (hstep.session q).trans (hother q hq)⟩, (hkept.pos p).changed hchanged, (hstep.session p).trans hgone, ?_⟩
  · rw [hstep.record, hrecord, if_pos rfl]
  · rintro n rfl
    rw [hstep.faults]
    exact hlast

/-- Settles O47. -/
theorem positionFaultRaised : Obligations.PositionFaultRaised := by
  unfold Obligations.PositionFaultRaised
  refine ⟨fun s p code detail => ?_, faultTakesClass_spec, faultTakesField_zero, testViolation_spec⟩
  intro c t active recorded onlySession unsold stopped
  refine ⟨fun ms h => faultTakesField_nonzero ms h, raiseFault_notice detail,
    fun f hf h => raiseFault_recorded detail h hf, fun hl hq hfree => ⟨fun h hf => ?_, fun f hf h hs => ?_⟩⟩
  · obtain ⟨hfault, hother, hchanged, hgone, hlast⟩ := raiseFault_active_effects detail h hf hl hq
    obtain ⟨hstep, hkept, hsafe⟩ := raiseFault_active_spec detail h hf hl hq
    obtain ⟨hpos, -, -, -⟩ := setActive_spec p code c s
    obtain ⟨hcards, hsettlements, -, -⟩ := hpos.store
    refine ⟨⟨hfault, hother⟩, hchanged, hsafe, fun hs => ?_, fun ses hs => ⟨fun hst => ?_, fun hst => ?_⟩⟩
    · have hend := endByFault_of_none (code := code) (c := c) ((hpos.session p).trans hs)
      have hret : (becomeActive p code c detail s).ret.cards = s.ret.cards
          ∧ (becomeActive p code c detail s).ret.settlements = s.ret.settlements := by
        rw [becomeActive_eq, hend]
        exact ⟨hcards, hsettlements⟩
      refine ⟨⟨fun id => ?_, hstep.settlements.1.trans hret.2⟩, hgone, hlast _ (by rw [hend])⟩
      rw [hstep.card, State.card, hret.1]
      rfl
    · obtain ⟨hcancelled, hdeclined, hend⟩ := becomeActive_starting (code := code) (c := c) detail hs hst
      obtain ⟨-, hsettled, -, -, hcard⟩ := hcancelled
      exact ⟨hgone, hstep.settlements.1.trans hsettled, hlast _ hend, hcard.of_cards rfl hstep.cards,
        hdeclined.step hstep⟩
    · obtain ⟨hclosed, hdeclined, hend, hcold, hwind⟩ :=
        becomeActive_closed (code := code) (c := c) detail hs hst hl hq hfree
      intro charge
      refine ⟨?_, hlast _ hend, ?_, (windDown_of_marks (hkept.pos p).marks).trans hwind⟩
      · rw [charge_fault] at hclosed
        exact hclosed.step hstep hkept
      · by_cases hsev : c.severity = .safety
        · exact (hsafe hsev).2
        · rw [show t = _ from raiseFault_active detail h hf]
          dsimp only
          rw [if_neg hsev]
          exact hcold.not_granted
  · obtain ⟨w, hstep, hw, hfault, hother, hhalt, hoff, hgrant⟩ := raiseFault_over_spec detail h hf hs hl hq
    obtain ⟨hpos, -, -, -⟩ := setActive_spec p code c s
    obtain ⟨hcards, hsettlements, hnumber, hminute⟩ := hpos.store
    have hlast : w.ret.faults.getLast? = some
        { number := s.ret.nextFault, code := code, position := some p, severity := .safety
          minute := s.minuteNow, settlement := none, detail := detail } := by
      rcases hw with rfl | rfl
      · exact getLast_appendFault ..
      · rw [← hnumber, ← hminute]
        exact getLast_appendFault ..
    have hret : w.ret.cards = s.ret.cards ∧ w.ret.settlements = s.ret.settlements ∧ ∀ q, w.session q = s.session q := by
      rcases hw with rfl | rfl
      · exact ⟨rfl, rfl, fun _ => rfl⟩
      · exact ⟨hcards, hsettlements, fun q => hpos.session q⟩
    obtain ⟨hwcards, hwsettlements, hwsession⟩ := hret
    refine ⟨⟨hhalt, hoff⟩, ⟨fun id => ?_, hstep.settlements.1.trans hwsettlements⟩, ?_,
      (hstep.session p).trans ((hwsession p).trans hs), ⟨?_, fun q hq => ⟨?_, ?_⟩⟩, hgrant⟩
    · rw [hstep.card, State.card, hwcards]
      rfl
    · change t.ret.faults.getLast? = some { severity := c.severity, .. }
      rw [hstep.faults, hlast, show c.severity = .safety from h]
    · rw [hstep.record, hfault]
      rfl
    · rw [hstep.record, hother q hq]
    · rw [hstep.session, hwsession]

end Sys2Proof.Machine
end

section
/-! Misses, and a node that becomes LOST (R20, R21, R48, R106, R129, R136). -/

namespace Sys2Proof.Machine

variable {s t u : State} {p q : PosIx} {ses : Session} {code : Nat} {c : FaultClass}

/-! ## Steps that leave the heat of a position -/

/-- No HEAT_ON waits undelivered in the queue of a position. -/
def NoHeatOn (p : PosIx) (s : State) : Prop := ∀ o ∈ (s.vol p).orders, o.tag = none → o.body ≠ .heatOn

/-- A step that leaves the grants and brings no HEAT_ON. -/
structure Still (p : PosIx) (s t : State) : Prop where
  grant : (t.vol p).grant = (s.vol p).grant
  heat : t.heat = s.heat
  noHeatOn : NoHeatOn p s → NoHeatOn p t

theorem Still.refl (p : PosIx) (s : State) : Still p s s := ⟨rfl, rfl, id⟩

theorem Still.trans (h : Still p s t) (k : Still p t u) : Still p s u :=
  ⟨k.grant.trans h.grant, k.heat.trans h.heat, fun e => k.noHeatOn (h.noHeatOn e)⟩

theorem Still.of_same (hpos : t.pos = s.pos) (hheat : t.heat = s.heat) : Still p s t := by
  have hvol : t.vol p = s.vol p := by rw [State.vol, hpos]; rfl
  exact ⟨by rw [hvol], hheat, by unfold NoHeatOn; rw [hvol]; exact id⟩

theorem Still.setVol (f : PosState → PosState) (hg : (f (s.vol p)).grant = (s.vol p).grant)
    (ho : ∀ o ∈ (f (s.vol p)).orders, o.tag = none → o.body = .heatOn →
      ∃ x ∈ (s.vol p).orders, x.tag = none ∧ x.body = .heatOn) : Still p s (s.setVol p f) := by
  have hvol : (s.setVol p f).vol p = f (s.vol p) := by rw [State.vol_setVol, if_pos rfl]
  refine ⟨by rw [hvol, hg], rfl, fun h => ?_⟩
  unfold NoHeatOn
  rw [hvol]
  intro o hmem htag hbody
  obtain ⟨x, hx, hxt, hxb⟩ := ho o hmem htag hbody
  exact h x hx hxt hxb

theorem still_markChanged (p : PosIx) (s : State) : Still p s (s.markChanged p) :=
  .setVol _ rfl fun o ho htag hbody => ⟨o, ho, htag, hbody⟩

theorem still_askDisplay (p : PosIx) (s : State) : Still p s (askDisplay p s) := by
  unfold askDisplay
  refine .setVol _ rfl fun o ho htag hbody => ?_
  rcases mem_queueDisplay ho with h | rfl
  · exact ⟨o, h, htag, hbody⟩
  · change (if s.outOfOrder p then OrderBody.disable else .enable) = .heatOn at hbody
    split at hbody <;> exact nomatch hbody

theorem still_serveOwed (p : PosIx) (s : State) : Still p s (serveOwed p s) := by
  unfold serveOwed
  split
  · exact still_askDisplay p s
  · exact .refl p s

theorem still_letGo (isOwn : OrderBody → Bool) (p : PosIx) (s : State) : Still p s (letGo isOwn p s) := by
  have freed : Still p s (s.setVol p fun v => { v with
      orders := ((s.vol p).orders.filter fun o => !(o.undelivered && isOwn o.body && o.owned)).map fun o =>
        if isOwn o.body then { o with owned := false } else o }) := by
    refine .setVol _ rfl fun o ho htag hbody => ?_
    obtain ⟨x, hx, rfl⟩ := List.mem_map.mp ho
    refine ⟨x, (List.mem_filter.mp hx).1, ?_⟩
    split at htag
    · next h =>
      rw [if_pos h] at hbody
      exact ⟨htag, hbody⟩
    · next h =>
      rw [if_neg h] at hbody
      exact ⟨htag, hbody⟩
  unfold letGo
  dsimp only
  split
  · exact freed.trans (still_serveOwed p _)
  · exact freed

theorem still_journalled (e : JournalEntry) (s : State) : Still p s (journalled e s) :=
  .of_same (by rw [journalled_eq]) (by rw [journalled_eq])

theorem still_sendDecline (x : TermIx) (tag : Byte) (reason : DeclineReason) (id : CardId) (s : State) :
    Still p s (sendDecline x tag reason id s) := by
  unfold sendDecline sendAnswer
  split
  · exact .of_same rfl rfl
  · exact .refl p s

theorem still_unheld (s : State) (p : PosIx) (ses : Session) : Still p s (s.unheld p ses) :=
  (still_letGo _ p s).trans (still_journalled _ _)

theorem still_captured (s : State) (p : PosIx) (ses : Session) (e : Ending) : Still p s (s.captured p ses e) :=
  (still_letGo _ p s).trans (still_journalled _ _)

theorem still_setActive (p : PosIx) (code : Nat) (c : FaultClass) (s : State) :
    Still p s (setActive p code c s) := by
  have hset : ∀ f, Still p s (s.setRecord p f) := fun f => .of_same rfl rfl
  unfold setActive withDisplay
  dsimp only
  split
  · exact ((hset _).trans (still_askDisplay p _)).trans (still_markChanged p _)
  · exact (hset _).trans (still_markChanged p _)

/-! ## A position without heat of its own -/

/-- A position that has no grant that its machine knows of: it waits, or its HEAT_ON is undelivered. -/
def Unheated (p : PosIx) (s : State) : Prop :=
  (s.vol p).grant = .none ∨ (s.vol p).grant = .queued
    ∨ (s.vol p).grant = .granted ∧ s.session p = none ∧ ∃ o ∈ (s.vol p).orders, o.tag = none ∧ o.body = .heatOn

theorem Unheated.evaluate (h : Unheated p s) (hs : s.session p = none) : Unheated p (evaluate s) := by
  refine (evaluate_induction (motive := fun s t => s.session p = none → Unheated p s → Unheated p t) (fun _ _ h => h)
    (fun s x rest t hq _ ih hs h => ?_) s) hs h
  obtain ⟨v, order, queue, heq, -, -, hv⟩ := grantHead_spec hq
  have hses : (grantHead x s).session p = none := by rw [heq]; exact hs
  refine ih hses ?_
  by_cases hx : p = x
  · subst hx
    have hvol : (grantHead p s).vol p = v := by
      rw [heq]
      exact (State.vol_setVol p p (fun _ => v) s).trans (if_pos rfl)
    unfold Unheated
    rw [hvol]
    rcases hv with rfl | rfl
    · exact .inr (.inr ⟨rfl, hses, newOrder .heatOn, List.mem_append_right _ List.mem_cons_self, rfl, rfl⟩)
    · exact .inl rfl
  · unfold Unheated
    rw [vol_grantHead_of_ne hq hx, hses]
    rwa [Unheated, hs] at h

theorem Unheated.committedFell (h : Unheated p s) (hs : s.session p = none) : Unheated p (committedFell s) := by
  refine Unheated.evaluate ?_ (((grantStep_activatePending s).session p).trans hs)
  unfold Unheated
  rw [vol_activatePending, (grantStep_activatePending s).session]
  exact h

theorem Unheated.of_same (h : Unheated p s) (hg : (t.vol p).grant = (s.vol p).grant)
    (ho : (t.vol p).orders = (s.vol p).orders) (hses : t.session p = s.session p) : Unheated p t := by
  unfold Unheated
  rw [hg, ho, hses]
  exact h

/-- What becomes of the heat of a position whose session ends: a RELEASING grant stays, one that is not known to its
machine goes, and a GRANTED one is RELEASING or still to be withdrawn. -/
structure HeatAfter (p : PosIx) (s t : State) : Prop where
  releasing : (s.vol p).grant = .releasing → (t.vol p).grant = .releasing
  unheated : (s.vol p).grant = .none ∨ (s.vol p).grant = .queued → Unheated p t
  granted : (s.vol p).grant = .granted → NoHeatOn p s →
    ((t.vol p).grant = .granted ∧ NoHeatOn p t) ∨ ((t.vol p).grant = .releasing ∧ (t.vol p).heatOffStands = true)

theorem Still.after (h : Still p s t) : HeatAfter p s t where
  releasing hg := h.grant.trans hg
  unheated hg := by
    unfold Unheated
    rw [h.grant]
    exact hg.imp_right .inl
  granted hg hno := .inl ⟨h.grant.trans hg, h.noHeatOn hno⟩

theorem HeatAfter.of_still (h : Still p s t) (k : HeatAfter p t u) : HeatAfter p s u where
  releasing hg := k.releasing (h.grant.trans hg)
  unheated hg := k.unheated (by rw [h.grant]; exact hg)
  granted hg hno := k.granted (h.grant.trans hg) (h.noHeatOn hno)

/-- A step behind it that leaves the position and its session. -/
theorem HeatAfter.of_same (h : HeatAfter p s t) (hg : (u.vol p).grant = (t.vol p).grant)
    (ho : (u.vol p).orders = (t.vol p).orders) (hses : u.session p = t.session p) : HeatAfter p s u where
  releasing e := hg.trans (h.releasing e)
  unheated e := (h.unheated e).of_same hg ho hses
  granted e hno := by
    unfold NoHeatOn PosState.heatOffStands
    rw [hg, ho]
    exact h.granted e hno

/-- Committed load that falls once the session is gone (R120, R127). -/
theorem heatAfter_committedFell (hc : HeatCore s) (hs : s.session p = none) : HeatAfter p s (committedFell s) := by
  have hidle : (s.vol p).grant ≠ .queued → (committedFell s).vol p = s.vol p := fun h =>
    (committedFell_idle (hc.not_mem_queue h)).1
  refine ⟨fun hg => ?_, fun hg => Unheated.committedFell (hg.imp_right .inl) hs, fun hg hno => .inl ?_⟩
  · rw [hidle (by rw [hg]; exact fun e => nomatch e)]
    exact hg
  · unfold NoHeatOn
    rw [hidle (by rw [hg]; exact fun e => nomatch e)]
    exact ⟨hg, hno⟩

theorem heatAfter_cancelSession (hs : s.session p = some ses) (hl : HeatLaw s) (reason : DeclineReason) :
    HeatAfter p s (cancelSession p reason s) := by
  have hmoves : Moves s (s.unheld p ses) :=
    (letGo_moves OrderBody.isStart p .refl).tail (.cancel p ses _ _ _ (by rw [letGo_session, hs]) fun _ => rfl)
  have hgone : (s.unheld p ses).session p = none := by
    rw [State.unheld, lowerHold, session_journalled]
    simp [SessionPart.sessions]
  have hafter := HeatAfter.of_still (still_unheld s p ses)
    (heatAfter_committedFell (heatCore_of_law (heatLaw_moves hl hmoves)) hgone)
  have hpos : ∀ w : State, (sendDecline ses.term ses.reqTag reason ses.cardId w).pos = w.pos := fun w => by
    unfold sendDecline sendAnswer
    split <;> rfl
  have hvol : (cancelSession p reason s).vol p = { (committedFell (s.unheld p ses)).vol p with changed := true } := by
    rw [cancelSession_eq hs, State.markChanged, State.vol_setVol, if_pos rfl, State.vol, hpos]
    rfl
  refine hafter.of_same (by rw [hvol]) (by rw [hvol]) ?_
  rw [(cancelSession_spec hs reason).1.1.1, (grantStep_committedFell _).session, hgone]

theorem heatAfter_closeSession (hs : s.session p = some ses) (hl : HeatLaw s) (hq : QueueLaw (s.vol p).orders)
    (e : Ending) : HeatAfter p s (closeSession p e s) := by
  have hmoves : Moves s (s.captured p ses e) :=
    (letGo_moves OrderBody.isExtend p .refl).tail (.close p ses _ _ _ _ (by rw [letGo_session, hs]) fun _ => rfl)
  have hmoves' := committedFell_moves hmoves
  have hcore := heatCore_of_law (heatLaw_moves hl hmoves')
  have hlaw := queueLaw_moves (p := p) hmoves' hq
  have hgone : (s.captured p ses e).session p = none := by rw [session_captured, if_pos rfl]
  have hgone' := ((grantStep_committedFell (s.captured p ses e)).session p).trans hgone
  have hafter := HeatAfter.of_still (still_captured s p ses e)
    (heatAfter_committedFell (heatCore_of_law (heatLaw_moves hl hmoves)) hgone)
  have hcalm : ¬ (((committedFell (s.captured p ses e)).vol p).heatRequest = true
      ∧ (committedFell (s.captured p ses e)).sessionIs p .running = true
      ∧ 0 < (committedFell (s.captured p ses e)).heaterDemand p) := fun h => by
    rw [not_running_of_none hgone'] at h
    exact nomatch h.2.1
  have hgrant : ((closeSession p e s).vol p).grant = ((s.closed p ses e).vol p).grant := by rw [vol_closeSession hs]
  have horders : ((closeSession p e s).vol p).orders = ((s.closed p ses e).vol p).orders := by rw [vol_closeSession hs]
  obtain ⟨-, hqueued, -⟩ := withdraw_ends hcore hlaw hcalm
  refine ⟨fun hg => ?_, fun hg => .inl ?_, fun hg hno => .inr ?_⟩
  · have h := hafter.releasing hg
    rw [hgrant, State.closed, withdraw_of_ended (.inr h), h]
  · rw [hgrant]
    rcases hafter.unheated hg with h | h | ⟨h, -, hon⟩
    · rw [State.closed, withdraw_of_ended (.inl h), h]
    · exact hqueued h
    · exact (withdraw_absorbed_none hcore h hon hcalm).1
  · unfold PosState.heatOffStands
    rw [hgrant, horders]
    rcases hafter.granted hg hno with ⟨h, hno'⟩ | ⟨h, hstands⟩
    · obtain ⟨hr, hstands, -⟩ := withdraw_releasing hcore hlaw h hno'
      exact ⟨hr.grant, hstands⟩
    · rw [State.closed, withdraw_of_ended (.inr h)]
      exact ⟨h, hstands⟩

/-- The heat of a position whose session a fault ends (R129, R148). -/
theorem heatAfter_endByFault (p : PosIx) (code : Nat) (c : FaultClass) (hl : HeatLaw s)
    (hq : QueueLaw (s.vol p).orders) : HeatAfter p s (endByFault p code c s).1 := by
  cases hs : s.session p with
  | none =>
    rw [endByFault_of_none hs]
    exact (Still.refl p s).after
  | some ses =>
    by_cases hst : ses.state = .starting
    · rw [endByFault_starting hs hst]
      exact heatAfter_cancelSession hs hl _
    · rw [endByFault_closed hs hst]
      exact heatAfter_closeSession hs hl hq _

theorem heatAfter_becomeActive (p : PosIx) (code : Nat) (c : FaultClass) (detail : Option MissKind) (hl : HeatLaw s)
    (hq : QueueLaw (s.vol p).orders) : HeatAfter p s (becomeActive p code c detail s) := by
  have hmoves : Moves s (setActive p code c s) := setActive_moves p code c .refl
  exact (HeatAfter.of_still (still_setActive p code c s)
    (heatAfter_endByFault p code c (heatLaw_moves hl hmoves) (queueLaw_moves hmoves hq))).of_same rfl rfl rfl

/-- The withdrawal of a grant behind such steps (R129, R136). -/
theorem HeatAfter.withdraw (h : HeatAfter p s t) (hc : HeatCore t) (hq : QueueLaw (t.vol p).orders) :
    ((s.vol p).grant = .releasing → ((withdraw p t).vol p).grant = .releasing)
    ∧ ((s.vol p).grant = .queued ∨ (s.vol p).grant = .none →
      ((withdraw p t).vol p).grant = .none ∧ p ∉ (withdraw p t).heat.queue)
    ∧ ((s.vol p).grant = .granted → NoHeatOn p s →
      ((withdraw p t).vol p).grant = .releasing ∧ ((withdraw p t).vol p).heatOffStands = true) := by
  refine ⟨fun hg => ?_, fun hg => ?_, fun hg hno => ?_⟩
  · rw [withdraw_of_ended (.inr (h.releasing hg)), h.releasing hg]
  · rcases h.unheated hg.symm with e | e | ⟨e, hs, hon⟩
    · rw [withdraw_of_ended (.inl e)]
      exact ⟨e, hc.not_mem_queue (by rw [e]; exact fun e => nomatch e)⟩
    · have hout : p ∉ (endGrant p t).heat.queue := fun hmem => ((hc.queue_nodup.mem_erase_iff).mp hmem).1 rfl
      obtain ⟨hvol, hnot⟩ := evaluate_idle hout
      rw [withdraw_of_queued e, hvol, grant_endGrant]
      exact ⟨rfl, hnot⟩
    · obtain ⟨hgrant, -, hnot⟩ := withdraw_absorbed_none hc e hon fun h => by
        rw [not_running_of_none hs] at h
        exact nomatch h.2.1
      exact ⟨hgrant, hnot⟩
  · rcases h.granted hg hno with ⟨e, hno'⟩ | ⟨e, hstands⟩
    · obtain ⟨hr, hstands, -⟩ := withdraw_releasing hc hq e hno'
      exact ⟨hr.grant, hstands⟩
    · rw [withdraw_of_ended (.inr e)]
      exact ⟨e, hstands⟩

end Sys2Proof.Machine
end

section
/-! A node that becomes LOST (R20, R21, R48, R106, R129, R136). -/

namespace Sys2Proof.Machine

variable {s t u : State} {p q : PosIx} {ses : Session} {code : Nat} {c : FaultClass} {kind : MissKind} {node : Node}

/-! ## A miss -/

/-- The bus state of a node that a miss makes LOST (R20). -/
def NodeBus.lostBy (b : NodeBus) (kind : MissKind) : NodeBus :=
  { b with miss := min (b.miss + 1) 15, presence := .lost, lastMiss := some kind, skip := 0 }

theorem missNode_lost (hp : (s.nodeBus node).presence ≠ .lost)
    (hlimit : s.ret.config.lostLimit ≤ (s.nodeBus node).miss + 1) : missNode node kind s
      = match node with
        | .machine p => machineLost p kind (s.setNodeBus node fun b => b.lostBy kind)
        | .terminal t => terminalLost t (s.setNodeBus node fun b => b.lostBy kind) := by
  unfold missNode
  dsimp only
  rw [if_neg hp, if_neg (Nat.not_lt.mpr hlimit)]
  cases node <;> rfl

/-- A machine position whose node is LOST, its changed flag set (R20, R21). -/
def State.nodeLost (s : State) (p : PosIx) (kind : MissKind) : State :=
  s.setVol p fun v => { v with bus := v.bus.lostBy kind, changed := true }

theorem missNode_machine (hp : (s.nodeBus (.machine p)).presence ≠ .lost)
    (hlimit : s.ret.config.lostLimit ≤ (s.nodeBus (.machine p)).miss + 1) : missNode (.machine p) kind s
      = withdraw p (cancelIfStarting p .machineFault (raiseFault p 16 (some kind) (s.nodeLost p kind))) := by
  have hmarked : (s.setNodeBus (.machine p) fun b => b.lostBy kind).markChanged p = s.nodeLost p kind :=
    setVol_setVol p (fun v => { v with bus := v.bus.lostBy kind }) (fun v => { v with changed := true }) s
  rw [missNode_lost hp hlimit]
  dsimp only
  rw [machineLost, hmarked]

theorem vol_nodeLost (s : State) (p : PosIx) (kind : MissKind) :
    (s.nodeLost p kind).vol p = { s.vol p with bus := (s.vol p).bus.lostBy kind, changed := true } := by
  rw [State.nodeLost, State.vol_setVol, if_pos rfl]

/-- NODE_LOST as it is classified (R144). -/
def nodeLostClass : FaultClass := { severity := .lockout, policy := .unused, autoClear := true }

theorem classOf_nodeLost (s : State) : s.classOf 16 = nodeLostClass := by
  unfold State.classOf
  rw [dif_neg (by decide), if_pos rfl]
  rfl

/-! ## A machine position in quiet -/

/-- A fault that becomes active with no fault before it (R27, R148 step 1). -/
theorem setActive_eq (hf : (s.record p).fault = none) : setActive p code c s
      = (let v := s.vol p
         let q := queueDisplay .disable v.orders
         { s with
            trail := s.ret :: s.trail
            ret := { s.ret with
              positions := s.ret.positions.set p.val { s.record p with fault := some (c.active code) } }
            pos := s.pos.set p.val
              (if (s.record p).oos then { v with changed := true }
               else { v with orders := q.1, owed := q.2, changed := true }) }) := by
  have was : s.outOfOrder p = (s.record p).oos := by simp [State.outOfOrder, hf]
  have now : (s.setRecord p fun r => { r with
      fault := some { code := code, severity := c.severity, autoClear := c.autoClear } }).outOfOrder p = true := by
    rw [State.outOfOrder, State.record_setRecord, if_pos rfl]
    exact Bool.or_true _
  unfold setActive withDisplay
  dsimp only
  rw [now, was]
  by_cases hoos : (s.record p).oos = true
  · rw [if_neg (by rw [hoos]; decide), if_pos hoos]
    rfl
  · rw [if_neg hoos, if_pos (by rw [Bool.eq_false_iff.mpr hoos]; decide), askDisplay_eq, now, if_pos rfl,
      State.markChanged, setVol_setVol]
    rfl

theorem cancelIfStarting_of_none (reason : DeclineReason) (hs : s.session p = none) :
    cancelIfStarting p reason s = s := by
  rw [cancelIfStarting, State.sessionIs, hs]
  rfl

/-- A miss that makes a machine LOST which has no session, no active fault and no grant (R20, R21, R27, R148). -/
theorem machineLost_quiet (hs : s.session p = none) (hf : (s.record p).fault = none) (hg : (s.vol p).grant = .none) :
    let v := s.vol p
    let q := queueDisplay .disable v.orders
    withdraw p (cancelIfStarting p .machineFault (raiseFault p 16 (some kind) (s.nodeLost p kind)))
      = appendFault 16 (some p) .lockout none (some kind) { s with
          trail := s.ret :: s.trail
          ret := { s.ret with
            positions := s.ret.positions.set p.val { s.record p with fault := some (nodeLostClass.active 16) } }
          pos := s.pos.set p.val
            (if (s.record p).oos then { v with bus := v.bus.lostBy kind, changed := true }
             else { v with bus := v.bus.lostBy kind, changed := true, orders := q.1, owed := q.2 }) } := by
  intro v q
  have hraised : raiseFault p 16 (some kind) (s.nodeLost p kind)
      = becomeActive p 16 nodeLostClass (some kind) (s.nodeLost p kind) := by
    rw [raiseFault_active (s := s.nodeLost p kind) (some kind) (by rw [classOf_nodeLost]; decide) hf, classOf_nodeLost]
    rfl
  have hactive : setActive p 16 nodeLostClass (s.nodeLost p kind) = { s with
      trail := s.ret :: s.trail
      ret := { s.ret with
        positions := s.ret.positions.set p.val { s.record p with fault := some (nodeLostClass.active 16) } }
      pos := s.pos.set p.val
        (if (s.record p).oos then { v with bus := v.bus.lostBy kind, changed := true }
         else { v with bus := v.bus.lostBy kind, changed := true, orders := q.1, owed := q.2 }) } := by
    have heq := setActive_eq (s := s.nodeLost p kind) (code := 16) (c := nodeLostClass) hf
    dsimp only at heq
    rw [vol_nodeLost] at heq
    refine heq.trans (congrArg (fun pos => ({ s with
      trail := s.ret :: s.trail
      ret := { s.ret with
        positions := s.ret.positions.set p.val { s.record p with fault := some (nodeLostClass.active 16) } }
      pos := pos } : State)) (Vector.set_set ..))
  obtain ⟨hpos, -, -, -⟩ := setActive_spec p 16 nodeLostClass (s.nodeLost p kind)
  have hgone := (hpos.session p).trans (show (s.nodeLost p kind).session p = none from hs)
  have hgrant : ((setActive p 16 nodeLostClass (s.nodeLost p kind)).vol p).grant = .none :=
    (still_setActive p 16 nodeLostClass (s.nodeLost p kind)).grant.trans (by rw [vol_nodeLost]; exact hg)
  have hrecorded : becomeActive p 16 nodeLostClass (some kind) (s.nodeLost p kind)
      = appendFault 16 (some p) .lockout none (some kind) (setActive p 16 nodeLostClass (s.nodeLost p kind)) := by
    rw [becomeActive_eq, endByFault_of_none hgone]
    rfl
  have hquiet : ∀ w : State, w.session p = none → (w.vol p).grant = .none →
      withdraw p (cancelIfStarting p .machineFault (appendFault 16 (some p) .lockout none (some kind) w))
        = appendFault 16 (some p) .lockout none (some kind) w := fun w hs hg => by
    rw [cancelIfStarting_of_none _ (by exact hs), withdraw_of_ended (.inl (by exact hg))]
  rw [hraised, hrecorded, hquiet _ hgone hgrant, hactive]

/-! ## A machine position in general -/

/-- The machine that a miss made LOST (R21). -/
def State.afterLost (s : State) (p : PosIx) (kind : MissKind) : State :=
  withdraw p (cancelIfStarting p .machineFault (raiseFault p 16 (some kind) (s.nodeLost p kind)))

theorem nodeLost_moves (s : State) (p : PosIx) (kind : MissKind) : Moves s (s.nodeLost p kind) :=
  setVol_moves p _ ⟨rfl, rfl⟩ .refl

/-- Room steps behind a change of the records of positions. -/
theorem PositionStep.roomAndFault (h : PositionStep s t) (k : RoomStepAndFault t u) :
    RoomStepAndFault s { u with ret := { u.ret with positions := s.ret.positions } } := by
  unfold PositionStep at h
  rw [h] at k
  exact (congrArg (fun x : State => { x with ret := { x.ret with positions := s.ret.positions } }) k :)

theorem positionStep_nodeLost (s : State) (p : PosIx) (kind : MissKind) : PositionStep s (s.nodeLost p kind) := rfl

theorem PositionStep.trans (h : PositionStep s t) (k : PositionStep t u) : PositionStep s u := by
  unfold PositionStep at *
  exact k.trans (by rw [h])

/-- What a miss that makes a machine LOST does with no fault active: NODE_LOST becomes active, the session ends, and the
grant is withdrawn (R106, R118, R136, R148). -/
theorem afterLost_alone (hf : (s.record p).fault = none) :
    let w := becomeActive p 16 nodeLostClass (some kind) (s.nodeLost p kind)
    s.afterLost p kind = withdraw p w ∧ Told p w (s.afterLost p kind) ∧ GrantStep w (s.afterLost p kind) := by
  intro w
  have hgone : w.session p = none := (becomeActive_spec p 16 nodeLostClass (some kind) (s.nodeLost p kind)).1
  have hraised : raiseFault p 16 (some kind) (s.nodeLost p kind) = w := by
    rw [raiseFault_active (s := s.nodeLost p kind) (some kind) (by rw [classOf_nodeLost]; decide) hf, classOf_nodeLost]
    rfl
  have heq : s.afterLost p kind = withdraw p w := by
    rw [State.afterLost, hraised, cancelIfStarting_of_none _ hgone]
  have told := told_withdraw p w
  rw [heq]
  exact ⟨rfl, told, told.calm (State.quiet_of_none hgone)⟩

/-- With another fault active NODE_LOST is recorded only (R148). -/
theorem afterLost_over {f : ActiveFault} (hf : (s.record p).fault = some f) :
    let a := appendFault 16 (some p) .lockout none (some kind) (s.nodeLost p kind)
    s.afterLost p kind = withdraw p (cancelIfStarting p .machineFault a) ∧ Told p a (s.afterLost p kind) := by
  intro a
  have hraised : raiseFault p 16 (some kind) (s.nodeLost p kind) = a :=
    raiseFault_recorded (s := s.nodeLost p kind) (some kind) (by rw [classOf_nodeLost]; rfl) hf
  rw [State.afterLost, hraised]
  exact ⟨rfl, (told_cancelIfStarting .machineFault a).trans (told_withdraw p _)⟩

theorem bus_of_marks {v w : PosState} (h : w.marks = v.marks) : w.bus = v.bus := (congrArg PosState.bus h :)

theorem bus_endByFault (p : PosIx) (code : Nat) (c : FaultClass) (s : State) :
    ((endByFault p code c s).1.vol p).bus = (s.vol p).bus := by
  cases hs : s.session p with
  | none => rw [endByFault_of_none hs]
  | some ses =>
    by_cases hst : ses.state = .starting
    · rw [endByFault_starting hs hst]
      exact bus_of_marks ((stirred_cancelSession (p := p) .machineFault s).kept.pos p).marks
    · rw [endByFault_closed hs hst, vol_closeSession hs]
      exact (bus_of_marks ((kept_closed s ses p _).pos p).marks).trans
        (bus_of_marks ((kept_captured s ses p _).pos p).marks)

/-- What every miss that makes a machine LOST leaves (R20, R21, R144, R148). -/
theorem afterLost_common (s : State) (p : PosIx) (kind : MissKind) :
    let t := s.afterLost p kind
    (t.vol p).bus = (s.vol p).bus.lostBy kind ∧ (t.vol p).changed = true
    ∧ RoomStepAndFault s { t with ret := { t.ret with positions := s.ret.positions } }
    ∧ (∀ q, q ≠ p → t.record q = s.record q ∧ t.session q = s.session q)
    ∧ ((s.record p).fault = none → t.record p = { s.record p with fault := some (nodeLostClass.active 16) })
    ∧ ((s.record p).fault ≠ none → t.record p = s.record p) := by
  have hvol := vol_nodeLost s p kind
  cases hf : (s.record p).fault with
  | none =>
    obtain ⟨-, told, hstep⟩ := afterLost_alone (kind := kind) hf
    obtain ⟨-, hother, hchanged, hrecord, -⟩ := becomeActive_spec p 16 nodeLostClass (some kind) (s.nodeLost p kind)
    obtain ⟨hpos, hkept, -, -⟩ := setActive_spec p 16 nodeLostClass (s.nodeLost p kind)
    obtain ⟨-, hroom, -, -⟩ := endByFault_spec p 16 nodeLostClass (setActive p 16 nodeLostClass (s.nodeLost p kind))
    refine ⟨?_, (told.kept.pos p).changed hchanged, ?_, fun q hq => ⟨?_, ?_⟩, fun _ => ?_, fun h => absurd rfl h⟩
    · refine (bus_of_marks (told.kept.pos p).marks).trans ((bus_endByFault ..).trans ?_)
      rw [bus_of_marks (hkept.pos p).marks, hvol]
    · exact ((positionStep_nodeLost s p kind).trans hpos).roomAndFault ((hroom.fault ..).step hstep.room)
    · rw [hstep.record, hrecord, if_neg (Ne.symm hq)]
      rfl
    · exact (hstep.session q).trans (hother q hq)
    · rw [hstep.record, hrecord, if_pos rfl]
      rfl
  | some f =>
    obtain ⟨-, told⟩ := afterLost_over (kind := kind) hf
    refine ⟨?_, (told.kept.pos p).changed ?_, ?_, fun q hq => ⟨told.room.record q, told.sessions q hq⟩, (nomatch ·),
      fun _ => told.room.record p⟩
    · refine (bus_of_marks (told.kept.pos p).marks).trans ?_
      exact congrArg PosState.bus hvol
    · exact congrArg PosState.changed hvol
    · exact (positionStep_nodeLost s p kind).roomAndFault (((RoomStep.refl _).fault ..).step told.room)

/-- The newest fault record behind a miss that makes a machine LOST (R144, R155). -/
theorem afterLost_recorded (s : State) (p : PosIx) (kind : MissKind) :
    (s.afterLost p kind).ret.faults.getLast? = some
      { number := s.ret.nextFault, code := 16, position := some p, severity := .lockout, minute := s.minuteNow
        settlement := if (s.record p).fault = none
          then (endByFault p 16 nodeLostClass (setActive p 16 nodeLostClass (s.nodeLost p kind))).2 else none
        detail := some kind } := by
  cases hf : (s.record p).fault with
  | none =>
    obtain ⟨-, -, hstep⟩ := afterLost_alone (kind := kind) hf
    obtain ⟨-, -, -, -, hlast⟩ := becomeActive_spec p 16 nodeLostClass (some kind) (s.nodeLost p kind)
    rw [hstep.faults, hlast, if_pos rfl]
    rfl
  | some f =>
    obtain ⟨-, told⟩ := afterLost_over (kind := kind) hf
    rw [told.room.faults, getLast_appendFault]
    rfl

/-- What becomes of the session of a machine that a miss made LOST (R106, R118, R136, R148). -/
theorem afterLost_session (s : State) (p : PosIx) (kind : MissKind) (hl : HeatLaw s) (hq : QueueLaw (s.vol p).orders)
    (hfree : NumberFree s) :
    let t := s.afterLost p kind
    let alone : Prop := (s.record p).fault = none
    let number := if (s.record p).fault = none
      then (endByFault p 16 nodeLostClass (setActive p 16 nodeLostClass (s.nodeLost p kind))).2 else none
    (s.session p = none → t.session p = none ∧ number = none
      ∧ t.ret.cards = s.ret.cards ∧ t.ret.settlements = s.ret.settlements)
    ∧ (∀ ses, s.session p = some ses →
      (ses.state = .starting →
        t.session p = none ∧ number = none ∧ t.ret.settlements = s.ret.settlements
        ∧ CardTook s t ses.cardId (fun c => { c with held := c.held - ses.hold })
        ∧ Declined s t ses.term ses.reqTag .machineFault ses.cardId)
      ∧ (ses.state ≠ .starting → alone →
        SessionClosed s t p ses ses.unusedCharge .fault (some 16)
        ∧ number = some s.ret.nextSettlement
        ∧ ∀ x, ses.ext = some x → Declined s t x.term x.reqTag .machineFault ses.cardId)
      ∧ (ses.state ≠ .starting → ¬ alone → number = none
        ∧ ((s.vol p).orders.length < 4 → t.session p = some ses))) := by
  intro t alone number
  have hmoves := nodeLost_moves s p kind
  have hlaw := heatLaw_moves hl hmoves
  have horders : ((s.nodeLost p kind).vol p).orders = (s.vol p).orders := by rw [vol_nodeLost]
  have hqueue : QueueLaw ((s.nodeLost p kind).vol p).orders := by rw [horders]; exact hq
  cases hf : (s.record p).fault with
  | none =>
    obtain ⟨-, told, hstep⟩ := afterLost_alone (kind := kind) hf
    obtain ⟨hpos, -, -, -⟩ := setActive_spec p 16 nodeLostClass (s.nodeLost p kind)
    obtain ⟨hcards, hsettlements, -, -⟩ := hpos.store
    have hnumber : number = (endByFault p 16 nodeLostClass (setActive p 16 nodeLostClass (s.nodeLost p kind))).2 :=
      if_pos hf
    rw [hnumber]
    refine ⟨fun hs => ?_, fun ses hs => ⟨fun hst => ?_, fun hst _ => ?_, fun _ h => absurd hf h⟩⟩
    · have hend := endByFault_of_none (code := 16) (c := nodeLostClass) ((hpos.session p).trans hs)
      have hret : (becomeActive p 16 nodeLostClass (some kind) (s.nodeLost p kind)).ret.cards = s.ret.cards
          ∧ (becomeActive p 16 nodeLostClass (some kind) (s.nodeLost p kind)).ret.settlements = s.ret.settlements := by
        rw [becomeActive_eq, hend]
        exact ⟨hcards, hsettlements⟩
      exact ⟨(hstep.session p).trans (becomeActive_spec p 16 nodeLostClass (some kind) (s.nodeLost p kind)).1,
        by rw [hend], hstep.cards.trans hret.1, hstep.settlements.1.trans hret.2⟩
    · obtain ⟨hcancelled, hdeclined, hend⟩ := becomeActive_starting (s := s.nodeLost p kind) (code := 16)
        (c := nodeLostClass) (some kind) hs hst
      obtain ⟨⟨hgone, -⟩, hsettled, -, -, hcard⟩ := hcancelled
      exact ⟨(hstep.session p).trans hgone, hend, hstep.settlements.1.trans hsettled, hcard.of_cards rfl hstep.cards,
        hdeclined.step hstep⟩
    · obtain ⟨hclosed, hdeclined, hend, -, -⟩ := becomeActive_closed (s := s.nodeLost p kind) (code := 16)
        (c := nodeLostClass) (some kind) hs hst hlaw hqueue hfree
      exact ⟨hclosed.step hstep told.kept, hend, fun x hx => (hdeclined x hx).step hstep⟩
  | some f =>
    obtain ⟨heq, told⟩ := afterLost_over (kind := kind) hf
    have hnumber : number = none := if_neg (by rw [hf]; exact fun e => nomatch e)
    let a := appendFault 16 (some p) .lockout none (some kind) (s.nodeLost p kind)
    refine ⟨fun hs => ?_, fun ses hs => ⟨fun hst => ?_, fun _ h => (nomatch hf.symm.trans h),
      fun hst _ => ⟨hnumber, fun hlen => ?_⟩⟩⟩
    · have hstep := told.calm (State.quiet_of_none hs)
      exact ⟨(hstep.session p).trans hs, hnumber, hstep.cards, hstep.settlements.1⟩
    · have ht : t = withdraw p (cancelSession p .machineFault a) :=
        heq.trans (congrArg (withdraw p) (if_pos (by
          rw [State.sessionIs, show a.session p = some ses from hs]
          exact beq_iff_eq.mpr hst)))
      obtain ⟨⟨⟨hgone, -⟩, hsettled, -, -, hcard⟩, hdeclined, -⟩ := cancelSession_spec (s := a) hs .machineFault
      have hstep := (told_withdraw p (cancelSession p .machineFault a)).calm (State.quiet_of_none hgone)
      rw [← ht] at hstep
      exact ⟨(hstep.session p).trans hgone, hnumber, hstep.settlements.1.trans hsettled,
        (hcard.of_cards (v := s) rfl hstep.cards :), (hdeclined.step hstep :)⟩
    · have ht : t = withdraw p a :=
        heq.trans (congrArg (withdraw p) (if_neg (by
          rw [State.sessionIs, show a.session p = some ses from hs]
          exact fun h => hst (beq_iff_eq.mp h))))
      have hcore : HeatCore a := heatCore_of_law (heatLaw_moves hl (appendFault_moves _ _ _ _ _ hmoves))
      rw [ht]
      exact ((grantStep_withdraw hcore (.inl (by exact (congrArg List.length horders).trans_lt hlen))).session p).trans hs

/-- What becomes of the grant of a machine that a miss made LOST (R129, R136). -/
theorem afterLost_grant (s : State) (p : PosIx) (kind : MissKind) (hl : HeatLaw s) (hq : QueueLaw (s.vol p).orders) :
    let t := s.afterLost p kind
    ((s.vol p).grant = .releasing → (t.vol p).grant = .releasing)
    ∧ ((s.vol p).grant = .queued ∨ (s.vol p).grant = .none → (t.vol p).grant = .none ∧ p ∉ t.heat.queue)
    ∧ ((s.vol p).grant = .granted →
      (NoHeatOn p s → (t.vol p).grant = .releasing ∧ (t.vol p).heatOffStands = true)
      ∧ ((s.record p).fault = none ∨ s.session p = none → (t.vol p).grant = .releasing ∨ (t.vol p).grant = .none)) := by
  have hmoves := nodeLost_moves s p kind
  have hstill : Still p s (s.nodeLost p kind) := .setVol _ rfl fun o ho htag hbody => ⟨o, ho, htag, hbody⟩
  have hends : ∀ {w : State}, Moves s w → w.session p = none →
      ((withdraw p w).vol p).grant = .releasing ∨ ((withdraw p w).vol p).grant = .none := fun {w} hw hs =>
    ((withdraw_ends (heatCore_of_law (heatLaw_moves hl hw)) (queueLaw_moves hw hq) fun h => by
      rw [not_running_of_none hs] at h
      exact nomatch h.2.1).1).symm
  have hpost : ∀ {w : State}, Moves s w → HeatAfter p s w →
      ((s.vol p).grant = .releasing → ((withdraw p w).vol p).grant = .releasing)
      ∧ ((s.vol p).grant = .queued ∨ (s.vol p).grant = .none →
        ((withdraw p w).vol p).grant = .none ∧ p ∉ (withdraw p w).heat.queue)
      ∧ ((s.vol p).grant = .granted → NoHeatOn p s →
        ((withdraw p w).vol p).grant = .releasing ∧ ((withdraw p w).vol p).heatOffStands = true) := fun {w} hw h =>
    h.withdraw (heatCore_of_law (heatLaw_moves hl hw)) (queueLaw_moves hw hq)
  intro t
  cases hf : (s.record p).fault with
  | none =>
    obtain ⟨heq, -⟩ := afterLost_alone (kind := kind) hf
    have hw := becomeActive_moves p 16 nodeLostClass (some kind) hmoves
    obtain ⟨h1, h2, h3⟩ := hpost hw (HeatAfter.of_still hstill (heatAfter_becomeActive p 16 nodeLostClass (some kind)
      (heatLaw_moves hl hmoves) (queueLaw_moves hmoves hq)))
    rw [show t = _ from heq]
    exact ⟨h1, h2, fun hg => ⟨h3 hg, fun _ =>
      hends hw (becomeActive_spec p 16 nodeLostClass (some kind) (s.nodeLost p kind)).1⟩⟩
  | some f =>
    obtain ⟨heq, -⟩ := afterLost_over (kind := kind) hf
    let a := appendFault 16 (some p) .lockout none (some kind) (s.nodeLost p kind)
    have ha : Moves s a := appendFault_moves _ _ _ _ _ hmoves
    have hafter : HeatAfter p a (cancelIfStarting p .machineFault a) := by
      unfold cancelIfStarting
      split
      · cases hs : a.session p with
        | none =>
          unfold cancelSession
          rw [hs]
          exact (Still.refl p a).after
        | some ses => exact heatAfter_cancelSession hs (heatLaw_moves hl ha) _
      · exact (Still.refl p a).after
    have hw : Moves s (cancelIfStarting p .machineFault a) := cancelIfStarting_moves p _ ha
    obtain ⟨h1, h2, h3⟩ := hpost hw (HeatAfter.of_still (hstill.trans (u := a) (.of_same rfl rfl)) hafter)
    rw [show t = _ from heq]
    refine ⟨h1, h2, fun hg => ⟨h3 hg, fun h => hends hw ?_⟩⟩
    have hs : a.session p = none := h.resolve_left fun e => nomatch e
    rw [cancelIfStarting_of_none _ hs]
    exact hs

/-- Settles O36. -/
theorem missesMakeNodeLost : Obligations.MissesMakeNodeLost := by
  unfold Obligations.MissesMakeNodeLost
  intro s node kind b lost
  refine ⟨fun h => if_pos h, fun h hlimit => ?_, fun h hlimit => ⟨?_, ?_, ?_⟩⟩
  · unfold missNode
    dsimp only
    rw [if_neg h, if_pos hlimit]
  · rintro t rfl v
    refine (missNode_lost h hlimit).trans ?_
    have heq := setTerm_setTerm t (fun v => { v with bus := v.bus.lostBy kind }) (fun v => { v with
      outbox := []
      request := none
      lastTag := if v.request.isSome then v.request else v.lastTag }) s
    exact heq
  · rintro p rfl hs hf hg v q
    exact (missNode_machine h hlimit).trans (machineLost_quiet hs hf hg)
  · rintro p rfl hl hq hfree
    intro t alone recorded
    have ht : t = s.afterLost p kind := missNode_machine h hlimit
    obtain ⟨hbus, hchanged, hroom, hother, halone, hover⟩ := afterLost_common s p kind
    obtain ⟨hnone, hsome⟩ := afterLost_session s p kind hl hq hfree
    have hlast := afterLost_recorded s p kind
    obtain ⟨hreleasing, hqueued, hgranted⟩ := afterLost_grant s p kind hl hq
    rw [← ht] at hbus hchanged hroom hother halone hover hlast hreleasing hqueued hgranted hnone hsome
    have hrec : ∀ n, (if (s.record p).fault = none
        then (endByFault p 16 nodeLostClass (setActive p 16 nodeLostClass (s.nodeLost p kind))).2 else none) = n →
        recorded n := fun n hn => by
      rw [hn] at hlast
      exact hlast
    refine ⟨hbus, hchanged, hroom, hother, halone, hover, fun hs => ?_, fun ses hs => ⟨fun hst => ?_, fun hst ha => ?_,
      fun hst ha => ?_⟩, hreleasing, hqueued, hgranted⟩
    · obtain ⟨h1, h2, h3, h4⟩ := hnone hs
      exact ⟨h1, hrec _ h2, h3, h4⟩
    · obtain ⟨h1, h2, h3, h4, h5⟩ := (hsome ses hs).1 hst
      exact ⟨h1, hrec _ h2, h3, h4, h5⟩
    · obtain ⟨h1, h2, h3⟩ := (hsome ses hs).2.1 hst ha
      exact ⟨h1, hrec _ h2, h3⟩
    · obtain ⟨h1, h2⟩ := (hsome ses hs).2.2 hst ha
      exact ⟨hrec _ h1, h2⟩

end Sys2Proof.Machine
end

section
/-! A confirmed order or item (R18, R32, R53, R56, R103, R104, R113, R114, R116, R128, R130). -/

namespace Sys2Proof.Machine

variable {s t u : State} {p q : PosIx} {ses : Session} {o : Order} {rest : List Order} {out : OrderOutcome}

/-! ## The order that leaves -/

/-- A position whose head order left its queue (R18). -/
def State.headLeft (s : State) (p : PosIx) (rest : List Order) : State :=
  s.setVol p fun v => { v with orders := rest }

theorem confirmOrder_eq (h : (s.vol p).orders = o :: rest) (out : OrderOutcome) :
    confirmOrder p out s = serveOwed p (reportOutcome p o out (s.headLeft p rest)) := by
  unfold confirmOrder
  rw [h]
  rfl

theorem vol_headLeft (s : State) (p : PosIx) (rest : List Order) :
    (s.headLeft p rest).vol p = { s.vol p with orders := rest } := by
  rw [State.headLeft, State.vol_setVol, if_pos rfl]

theorem not_owed_headLeft (h : (s.vol p).owed = false) (rest : List Order) :
    ((s.headLeft p rest).vol p).owed = false := by
  rw [vol_headLeft]
  exact h

/-- A report that changes nothing where nothing is owed. -/
theorem confirmOrder_quiet (h : (s.vol p).orders = o :: rest) (howed : (s.vol p).owed = false)
    (hout : reportOutcome p o out (s.headLeft p rest) = s.headLeft p rest) :
    confirmOrder p out s = s.headLeft p rest := by
  rw [confirmOrder_eq h, hout, serveOwed_of_not_owed (not_owed_headLeft howed rest)]

/-! ## Answers -/

/-- An ANSWER that is admitted stands in the outbox (R52, R55). -/
theorem answered_of_sent {x : TermIx} {a : Answer} (hadm : s.admitsAnswer x a.reqTag = true)
    (hlen : (s.terminal x).outbox.length < 4) :
    { body := .answer a false, tag := none } ∈ ((sendAnswer x a s).terminal x).outbox := by
  rw [sendAnswer, if_pos hadm]
  unfold queueAnswer
  rw [State.terminal_setTerm, if_pos rfl]
  exact mem_placeAnswer_self hlen

theorem sendAnswer_eq (x : TermIx) (a : Answer) (s : State) :
    sendAnswer x a s = { s with term := (sendAnswer x a s).term } := by
  unfold sendAnswer
  split <;> rfl

/-! ## START and EXTEND -/

theorem SessionCancelled.step (h : SessionCancelled s t p ses) (k : GrantStep t u) (hk : Kept p t u) :
    SessionCancelled s u p ses := by
  obtain ⟨⟨hgone, hother, hchanged⟩, hsettled, hnumber, hfaults, hcard⟩ := h
  exact ⟨⟨(k.session p).trans hgone, fun q hq => (k.session q).trans (hother q hq), (hk.pos p).changed hchanged⟩,
    k.settlements.1.trans hsettled, k.settlements.2.trans hnumber, k.faults.trans hfaults, hcard.of_cards rfl k.cards⟩

/-- A session that its START made RUNNING (R103, R104). -/
def Session.started (ses : Session) : Session :=
  { ses with startLimit := none, state := .running, secs := 0, heatSecs := 0, startReport := true }

/-- The answer to a START that was TAKEN (R58, R103). -/
def Session.startAnswer (ses : Session) (available : Option Nat) : Answer :=
  acceptAnswer ses.reqTag ses.hold (if ses.mclass = .washer then ses.n else ses.purchased) ses.options available

theorem startTaken_eq (hs : s.session p = some ses) : startTaken p s
    = (sendAnswer ses.term (ses.startAnswer (s.available ses.cardId))
        (s.setSession p fun _ => some ses.started)).markChanged p := by
  have hminutes : ses.startAnswer (s.available ses.cardId) = acceptAnswer ses.reqTag ses.hold
      (match ses.mclass with
        | .washer => ses.n
        | .dryer => ses.purchased) ses.options (s.available ses.cardId) := by
    unfold Session.startAnswer
    cases ses.mclass <;> rfl
  rw [hminutes, ← setSession_of_some hs Session.started]
  unfold startTaken
  rw [hs]
  rfl

/-- START confirmed TAKEN (R103, R104). -/
theorem startTaken_spec (hs : s.session p = some ses) :
    let t := startTaken p s
    t.session p = some ses.started ∧ (∀ q, q ≠ p → t.session q = s.session q)
    ∧ t.ret.cards = s.ret.cards ∧ t.ret.settlements = s.ret.settlements ∧ RoomStep s t
    ∧ t.vol p = { s.vol p with changed := true }
    ∧ (s.admitsAnswer ses.term ses.reqTag = true → (s.terminal ses.term).outbox.length < 4 →
      { body := .answer (ses.startAnswer (s.available ses.cardId)) false, tag := none }
        ∈ (t.terminal ses.term).outbox) := by
  have hrun : (s.setSession p fun _ => some ses.started).session p = some ses.started := by
    rw [State.session_setSession, if_pos rfl]
  have hother : ∀ q, q ≠ p → (s.setSession p fun _ => some ses.started).session q = s.session q := fun q hq => by
    rw [State.session_setSession, if_neg (Ne.symm hq)]
  have hsent := answered_of_sent (s := s.setSession p fun _ => some ses.started) (x := ses.term)
    (a := ses.startAnswer (s.available ses.cardId))
  intro t
  rw [show t = _ from startTaken_eq hs]
  obtain ⟨term, heq⟩ : ∃ term, sendAnswer ses.term (ses.startAnswer (s.available ses.cardId))
      (s.setSession p fun _ => some ses.started) = { s.setSession p fun _ => some ses.started with term := term } :=
    ⟨_, sendAnswer_eq ..⟩
  rw [heq] at hsent ⊢
  refine ⟨hrun, hother, rfl, rfl, rfl, ?_, hsent⟩
  rw [State.markChanged, State.vol_setVol, if_pos rfl]
  rfl

/-- A session that its EXTEND made longer (R113). -/
def Session.extended (ses : Session) (e : Extension) : Session :=
  { ses with purchased := ses.purchased + e.minutes, ext := none, holding := false }

/-- EXTEND confirmed TAKEN (R113). -/
theorem extendTaken_spec {e : Extension} (hs : s.session p = some ses) (hext : ses.ext = some e) :
    let t := extendTaken p s
    t = { s with
      trail := t.trail
      term := t.term
      ret := { s.ret with sessions := s.ret.sessions.set p.val (some (ses.extended e)) } }
    ∧ (s.admitsAnswer e.term e.reqTag = true → (s.terminal e.term).outbox.length < 4 →
      { body := .answer (acceptAnswer e.reqTag e.hold e.minutes ses.options (s.available ses.cardId)) false
        tag := none } ∈ (t.terminal e.term).outbox) := by
  have heq : extendTaken p s = sendAnswer e.term
      (acceptAnswer e.reqTag e.hold e.minutes ses.options (s.available ses.cardId))
      (s.setSession p fun _ => some (ses.extended e)) := by
    rw [← setSession_of_some hs fun x => x.extended e]
    unfold extendTaken
    rw [hs]
    dsimp only
    rw [hext]
    rfl
  have hsent := answered_of_sent (s := s.setSession p fun _ => some (ses.extended e)) (x := e.term)
    (a := acceptAnswer e.reqTag e.hold e.minutes ses.options (s.available ses.cardId))
  intro t
  rw [show t = _ from heq]
  refine ⟨?_, hsent⟩
  obtain ⟨term, hterm⟩ : ∃ term, sendAnswer e.term
      (acceptAnswer e.reqTag e.hold e.minutes ses.options (s.available ses.cardId))
      (s.setSession p fun _ => some (ses.extended e)) = { s.setSession p fun _ => some (ses.extended e) with
        term := term } := ⟨_, sendAnswer_eq ..⟩
  rw [hterm]
  rfl

/-! ## HEAT_ON -/

/-- HEAT_ON confirmed REFUSED ends a GRANTED grant (R128). -/
theorem heatOnRefused_headLeft (howed : (s.vol p).owed = false) (hg : (s.vol p).grant = .granted) :
    serveOwed p (heatOnRefused p (s.headLeft p rest)) = committedFell (s.grantEnded p rest) := by
  have hgrant : ((s.headLeft p rest).vol p).grant = .granted := by rw [vol_headLeft]; exact hg
  have hended : endGrant p (s.headLeft p rest) = s.grantEnded p rest := by
    rw [endGrant_eq, State.grantEnded, vol_headLeft]
    exact congrArg (fun pos => ({ s with
      pos := pos
      heat := { s.heat with queue := s.heat.queue.erase p, order := s.heat.order.erase p } } : State))
      (Vector.set_set ..)
  rw [heatOnRefused, if_pos hgrant, hended]
  refine serveOwed_of_not_owed ?_
  rw [committedFell, owed_evaluate, vol_activatePending, vol_grantEnded]
  exact howed

/-! ## Items of an outbox -/

/-- A confirmed item leaves the outbox, and the ANSWER to the pending request ends it (R53, R56). -/
theorem confirmItem_spec (s : State) (t : TermIx) :
    let v := s.terminal t
    let answers (i : Item) : Prop := ∃ a, i.body = .answer a false ∧ v.request = some a.reqTag
    (v.outbox = [] → confirmItem t s = s)
    ∧ ∀ i rest, v.outbox = i :: rest →
      (answers i → confirmItem t s = { s with
        term := s.term.set t.val { v with outbox := rest, request := none, lastTag := v.request } })
      ∧ (¬ answers i → confirmItem t s = { s with term := s.term.set t.val { v with outbox := rest } }) := by
  intro v answers
  have hanswers : ∀ i : Item, v.request.any (fun tag => i.answers tag) = true ↔ answers i := fun i => by
    rw [Option.any_eq_true]
    unfold Item.answers
    constructor
    · rintro ⟨tag, htag, h⟩
      split at h
      · next a busy hbody =>
        obtain ⟨hbusy, hreq⟩ := Bool.and_eq_true_iff.mp h
        obtain rfl : busy = false := by simpa using hbusy
        exact ⟨a, hbody, by rw [htag, eq_of_beq hreq]⟩
      · exact nomatch h
    · rintro ⟨a, hbody, hreq⟩
      refine ⟨a.reqTag, hreq, ?_⟩
      rw [hbody]
      simp
  refine ⟨fun h => ?_, fun i rest h => ⟨fun ha => ?_, fun ha => ?_⟩⟩
  · unfold confirmItem
    rw [setTerm_eq, show s.terminal t = v from rfl, h]
    exact congrArg (fun term => ({ s with term := term } : State)) (Vector.set_getElem_self ..)
  · unfold confirmItem
    rw [setTerm_eq, show s.terminal t = v from rfl, h]
    dsimp only
    rw [if_pos ((hanswers i).mpr ha)]
  · unfold confirmItem
    rw [setTerm_eq, show s.terminal t = v from rfl, h]
    dsimp only
    rw [if_neg (mt (hanswers i).mp ha)]

/-! ## The obligation -/

theorem ne_taken_of_refused {reason : RefusalReason} (h : out = .refused reason) : out ≠ .taken := by
  rw [h]
  exact fun e => nomatch e

/-- Every outcome but TAKEN is REFUSED (R32). -/
theorem refused_of_ne_taken (h : out ≠ .taken) : ∃ reason, out = .refused reason := by
  cases out with
  | taken => exact absurd rfl h
  | refused reason => exact ⟨reason, rfl⟩

/-- Where the outcome of a START goes (R103, R116). -/
theorem reportOutcome_start {program options minutes} (hbody : o.body = .start program options minutes)
    (out : OrderOutcome) : reportOutcome p o out s = if o.owned = true
      then (if out = .taken then startTaken p s else cancelIfStarting p .machineNotReady s)
      else if out = .taken then unpaidRun p false s else s := by
  unfold reportOutcome
  rw [hbody]
  cases out with
  | taken => exact ite_congr rfl (fun _ => (if_pos rfl).symm) fun _ => (if_pos rfl).symm
  | refused reason => exact ite_congr rfl (fun _ => (if_neg (nomatch ·)).symm) fun _ => (if_neg (nomatch ·)).symm

/-- Where the outcome of an EXTEND goes (R113, R114). -/
theorem reportOutcome_extend {minutes} (hbody : o.body = .extend minutes) (out : OrderOutcome) :
    reportOutcome p o out s = if o.owned = true
      then (if out = .taken then extendTaken p s else extensionFail p .machineNotReady s) else s := by
  unfold reportOutcome
  rw [hbody]
  cases out with
  | taken => exact ite_congr rfl (fun _ => (if_pos rfl).symm) fun _ => rfl
  | refused reason => exact ite_congr rfl (fun _ => (if_neg (nomatch ·)).symm) fun _ => rfl

/-- A START of a STARTING session that is confirmed (R103). -/
theorem confirmOrder_start {program options minutes} (h : (s.vol p).orders = o :: rest) (howed : (s.vol p).owed = false)
    (hbody : o.body = .start program options minutes) (hown : o.owned = true) (hs : s.session p = some ses)
    (hst : ses.state = .starting) :
    (out = .taken → confirmOrder p out s = startTaken p (s.headLeft p rest))
    ∧ (out ≠ .taken → confirmOrder p out s = serveOwed p (cancelSession p .machineNotReady (s.headLeft p rest))) := by
  refine ⟨?_, fun hout => ?_⟩
  · intro hout
    obtain ⟨-, -, -, -, -, hvol, -⟩ := startTaken_spec (s := s.headLeft p rest) (p := p) hs
    rw [confirmOrder_eq h, reportOutcome_start hbody, if_pos hown, if_pos hout]
    refine serveOwed_of_not_owed ?_
    rw [hvol]
    exact not_owed_headLeft howed rest
  · rw [confirmOrder_eq h, reportOutcome_start hbody, if_pos hown, if_neg hout]
    refine congrArg (serveOwed p) (if_pos ?_)
    rw [State.sessionIs, show (s.headLeft p rest).session p = some ses from hs]
    exact beq_iff_eq.mpr hst

/-- A START without an owner that is confirmed (R116). -/
theorem confirmOrder_ownerless {program options minutes} (h : (s.vol p).orders = o :: rest)
    (howed : (s.vol p).owed = false) (hbody : o.body = .start program options minutes) (hown : o.owned = false) :
    (out = .taken → confirmOrder p out s = serveOwed p (unpaidRun p false (s.headLeft p rest)))
    ∧ (out ≠ .taken → confirmOrder p out s = s.headLeft p rest) := by
  refine ⟨?_, fun hout => confirmOrder_quiet h howed ?_⟩
  · intro hout
    rw [confirmOrder_eq h, reportOutcome_start hbody, if_neg (ne_true_of_eq_false hown), if_pos hout]
  · rw [reportOutcome_start hbody, if_neg (ne_true_of_eq_false hown), if_neg hout]

/-- An unpaid run that a confirmed START shows (R116). -/
theorem confirmed_unpaidRun (s : State) (p : PosIx) :
    let t := serveOwed p (unpaidRun p false s)
    (t.vol p).unpaid = true ∧ (QueueLaw (s.vol p).orders → (t.vol p).haltStands = true)
    ∧ ((s.vol p).unpaid = true → RoomStep s t)
    ∧ ((s.vol p).unpaid = false → RoomStepAndFault s t
      ∧ (t.ret.faults.getLast?).map (fun r => (r.code, r.position, r.severity, r.settlement, r.detail))
        = some (19, some p, .notice, none, none)) := by
  obtain ⟨hunpaid, hhalt, hroom, hfault⟩ := unpaidRun_spec (s := s) (p := p) false rfl
  have told := told_serveOwed p (unpaidRun p false s)
  refine ⟨(congrArg PosState.unpaid (told.kept.pos p).marks :).trans hunpaid, fun hq => ?_,
    fun h => (hroom h).trans told.room, fun h => ?_⟩
  · exact haltStands_iff.mpr ((told.kept.pos p).stands .halt (.inl rfl) (haltStands_iff.mp (hhalt hq)))
  · obtain ⟨hstep, hlast⟩ := hfault h
    refine ⟨hstep.step told.room, ?_⟩
    rw [told.room.faults, hlast]
    rfl

/-- An EXTEND of an open extension that is confirmed (R113, R114). -/
theorem confirmOrder_extend {minutes} {e : Extension} (h : (s.vol p).orders = o :: rest) (howed : (s.vol p).owed = false)
    (hbody : o.body = .extend minutes) (hown : o.owned = true) (hs : s.session p = some ses) (hext : ses.ext = some e) :
    (out = .taken → confirmOrder p out s = extendTaken p (s.headLeft p rest))
    ∧ (out ≠ .taken → confirmOrder p out s = serveOwed p (extensionFail p .machineNotReady (s.headLeft p rest))) := by
  refine ⟨?_, fun hout => ?_⟩
  · intro hout
    obtain ⟨heq, -⟩ := extendTaken_spec (s := s.headLeft p rest) (p := p) hs hext
    rw [confirmOrder_eq h, reportOutcome_extend hbody, if_pos hown, if_pos hout]
    refine serveOwed_of_not_owed ?_
    have hpos : (extendTaken p (s.headLeft p rest)).pos = (s.headLeft p rest).pos := by rw [heq]
    rw [State.vol, hpos]
    exact not_owed_headLeft howed rest
  · rw [confirmOrder_eq h, reportOutcome_extend hbody, if_pos hown, if_neg hout]

/-- An order whose report changes nothing (R32). -/
theorem reportOutcome_none (hbody : o.body = .finish ∨ o.body = .halt ∨ o.body = .disable ∨ o.body = .enable) :
    reportOutcome p o out s = s := by
  unfold reportOutcome
  rcases hbody with hb | hb | hb | hb <;> rw [hb]

/-- Settles O39. -/
theorem confirmedOrderReachesOwner : Obligations.ConfirmedOrderReachesOwner := by
  unfold Obligations.ConfirmedOrderReachesOwner
  refine ⟨fun s p o rest out h howed => ?_, fun s p o rest out h howed hbody => ?_, confirmItem_spec⟩
  · intro left
    have hleft : left = s.headLeft p rest := rfl
    have hvol := vol_headLeft s p rest
    refine ⟨fun program options minutes ses hbody hown hs hst => ?_, fun program options minutes hbody hown => ?_,
      fun minutes hbody => ⟨fun hown => ?_, fun ses e hown hs hext => ?_⟩, fun hbody => ?_,
      fun hbody => ?_, fun hbody => ?_⟩
    · obtain ⟨htaken, hrefused⟩ := confirmOrder_start (out := out) h howed hbody hown hs hst
      refine ⟨fun hout => ⟨_, htaken hout, ?_⟩, fun reason hout => ⟨_, hrefused (ne_taken_of_refused hout), ?_⟩⟩
      · have hspec := startTaken_spec (s := s.headLeft p rest) (p := p) hs
        rw [hvol] at hspec
        exact hspec
      · obtain ⟨hcancelled, hdeclined, -⟩ := cancelSession_spec (s := s.headLeft p rest) hs .machineNotReady
        have hstep := grantStep_serveOwed p (cancelSession p .machineNotReady (s.headLeft p rest))
        have hkept := (told_serveOwed p (cancelSession p .machineNotReady (s.headLeft p rest))).kept
        exact ⟨hcancelled.step hstep hkept, (show RoomStep s (s.headLeft p rest) from rfl).trans
          ((stirred_cancelSession (p := p) _ _).room.trans hstep.room), (hdeclined.step hstep :)⟩
    · obtain ⟨htaken, hrefused⟩ := confirmOrder_ownerless (out := out) h howed hbody hown
      obtain ⟨hunpaid, hhalt, hroom, hfault⟩ := confirmed_unpaidRun (s.headLeft p rest) p
      rw [hvol] at hhalt hroom hfault
      have hlaw : QueueLaw (s.vol p).orders → QueueLaw rest := fun hq => by
        rw [h] at hq
        exact hq.sublist (List.sublist_cons_self o rest)
      refine ⟨fun hout hun => ?_, fun hout hun => ⟨fun hhalts => ?_, fun _ => ?_⟩, fun hout => hrefused hout⟩
      · obtain ⟨hstep, hlast⟩ := hfault hun
        exact ⟨_, htaken hout, hunpaid, RoomStep.trans (show RoomStep s (s.headLeft p rest) from rfl) hstep, hlast,
          fun hq => hhalt (hlaw hq)⟩
      · rw [htaken hout]
        have hstands : ((s.headLeft p rest).vol p).haltStands = true := by
          rw [hvol]
          exact haltStands_iff.mpr hhalts
        have hun' : ((s.headLeft p rest).vol p).unpaid = true := by
          rw [hvol]
          exact hun
        unfold unpaidRun
        rw [Bool.false_and, if_neg Bool.false_ne_true, if_pos hun', if_pos hstands]
        exact serveOwed_of_not_owed (not_owed_headLeft howed rest)
      · exact ⟨_, htaken hout, hunpaid, (show RoomStep s (s.headLeft p rest) from rfl).trans (hroom hun),
          fun hq => hhalt (hlaw hq)⟩
    · refine confirmOrder_quiet h howed ?_
      rw [reportOutcome_extend hbody, if_neg (ne_true_of_eq_false hown)]
    · obtain ⟨htaken, hrefused⟩ := confirmOrder_extend (out := out) h howed hbody hown hs hext
      refine ⟨fun hout => ⟨_, htaken hout, extendTaken_spec (s := s.headLeft p rest) (p := p) hs hext⟩,
        fun hout => ⟨_, hrefused hout, ?_⟩⟩
      obtain ⟨hsession, hcard, hdeclined, -⟩ := extensionFail_spec (s := s.headLeft p rest) hs hext .machineNotReady
      have hstep := grantStep_serveOwed p (extensionFail p .machineNotReady (s.headLeft p rest))
      have told := told_extensionFail p .machineNotReady (s.headLeft p rest)
      exact ⟨(hstep.session p).trans hsession, fun q hq => (hstep.session q).trans (told.sessions q hq),
        (hcard.of_cards (v := s) rfl hstep.cards :), hstep.settlements.1.trans told.settlements.1,
        (show RoomStep s (s.headLeft p rest) from rfl).trans (told.room.trans hstep.room), (hdeclined.step hstep :)⟩
    · have hgrant : ((s.headLeft p rest).vol p).grant = (s.vol p).grant := by rw [hvol]
      refine ⟨fun hout => confirmOrder_quiet h howed ?_, fun hout hg => confirmOrder_quiet h howed ?_, fun hout hg => ?_⟩
      · unfold reportOutcome
        rw [hbody, hout]
      · obtain ⟨reason, rfl⟩ := refused_of_ne_taken hout
        unfold reportOutcome
        rw [hbody]
        exact if_neg (by rw [hgrant]; exact hg)
      · obtain ⟨reason, rfl⟩ := refused_of_ne_taken hout
        refine Eq.trans ?_ (heatOnRefused_headLeft howed hg)
        rw [confirmOrder_eq h]
        unfold reportOutcome
        rw [hbody]
    · have hrep : reportOutcome p o out (s.headLeft p rest)
          = s.setVol p fun v => { v with orders := rest, armed := true } := by
        unfold reportOutcome
        rw [hbody]
        exact setVol_setVol p (fun v => { v with orders := rest }) (fun v => { v with armed := true }) s
      rw [confirmOrder_eq h, hrep]
      refine serveOwed_of_not_owed ?_
      rw [State.vol_setVol, if_pos rfl]
      exact howed
    · exact confirmOrder_quiet h howed (reportOutcome_none hbody)
  · intro r q
    have howed' : ((s.headLeft p rest).vol p).owed = true := by
      rw [vol_headLeft]
      exact howed
    rw [confirmOrder_eq h, reportOutcome_none hbody, serveOwed, if_pos howed', askDisplay_eq]
    dsimp only
    rw [vol_headLeft]
    exact setVol_setVol p (fun v => { v with orders := rest }) (fun v => { v with orders := q.1, owed := q.2 }) s

end Sys2Proof.Machine
end

section
/-! A CARD at a terminal, and what an authorized request opens (R49 to R51, R67, R99, R101, R103, R112, R114). -/

namespace Sys2Proof.Machine

variable {s t u : State} {p q : PosIx} {ses : Session} {x : TermIx} {r : CardRequest} {why : DeclineReason}

/-! ## What authorization hands on -/

theorem takeRequest_error (h : authorize p x r s = .error why) :
    takeRequest p x r s = sendDecline x r.reqTag why r.cardId s := by
  unfold takeRequest
  rw [h]

theorem takeRequest_create (h : authorize p x r s = .ok (.create ses)) :
    takeRequest p x r s = createSession p ses s := by
  unfold takeRequest
  rw [h]

theorem takeRequest_topup {minutes increment : Nat} (h : authorize p x r s = .ok (.topup minutes increment)) :
    takeRequest p x r s = recordTopup p x r.reqTag minutes increment s := by
  unfold takeRequest
  rw [h]

/-- A new session is one of the request's terminal and card (R88, R99). -/
theorem authorize_owner (h : authorize p x r s = .ok (.create ses)) :
    ses.term = x ∧ ses.reqTag = r.reqTag ∧ ses.cardId = r.cardId := by
  unfold authorize at h
  split at h
  · exact nomatch h
  split at h
  · exact nomatch h
  next card hcard =>
  split at h
  · exact nomatch h
  split at h
  · exact nomatch h
  split at h
  · exact nomatch h
  split at h
  · unfold authorizeNew at h
    split at h
    · exact nomatch h
    split at h
    · exact nomatch h
    split at h
    · exact nomatch h
    split at h
    · exact nomatch h
    dsimp only at h
    split at h
    · exact nomatch h
    · obtain rfl := Decision.create.inj (Except.ok.inj h)
      exact ⟨rfl, rfl, card_id hcard⟩
  · split at h
    · unfold authorizeTopup at h
      dsimp only at h
      split at h
      · exact nomatch h
      · split at h <;> exact nomatch h
    · exact nomatch h

/-- A top-up finds no open extension (R99 check 6, R100). -/
theorem authorize_unextended {minutes increment : Nat} (h : authorize p x r s = .ok (.topup minutes increment))
    (hs : s.session p = some ses) : ses.ext = none := by
  unfold authorize at h
  split at h
  · exact nomatch h
  split at h
  · exact nomatch h
  split at h
  · exact nomatch h
  split at h
  · exact nomatch h
  split at h
  · exact nomatch h
  rw [hs] at h
  dsimp only at h
  split at h
  · next hcond =>
    obtain ⟨-, hext⟩ := Bool.and_eq_true_iff.mp hcond
    exact Option.isNone_iff_eq_none.mp hext
  · exact nomatch h

/-! ## A request that is declined -/

theorem sendDecline_eq (x : TermIx) (tag : Byte) (why : DeclineReason) (id : CardId) (s : State) :
    ∃ box, sendDecline x tag why id s = { s with term := s.term.set x.val { s.terminal x with outbox := box } } := by
  unfold sendDecline sendAnswer
  split
  · exact ⟨_, rfl⟩
  · refine ⟨(s.terminal x).outbox, congrArg (fun term => ({ s with term := term } : State)) ?_⟩
    exact (Vector.set_getElem_self ..).symm

theorem terminal_sendDecline {y : TermIx} (h : y ≠ x) (tag : Byte) (why : DeclineReason) (id : CardId) (s : State) :
    (sendDecline x tag why id s).terminal y = s.terminal y := by
  unfold sendDecline sendAnswer
  split
  · rw [queueAnswer, State.terminal_setTerm, if_neg (Ne.symm h)]
  · rfl

/-- A DECLINE that a state with the same terminals was owed. -/
theorem Declined.of_terminals {tag : Byte} {id : CardId} (hterm : t.term = s.term)
    (hconf : t.ret.terminals = s.ret.terminals) (h : Declined t u x tag why id) : Declined s u x tag why id := by
  intro hadm hlen
  refine h ?_ (by rw [State.terminal, hterm]; exact hlen)
  rw [← hadm, State.admitsAnswer, State.admitsAnswer, State.termConfigured, State.termConfigured, State.terminal,
    State.terminal, hterm, hconf]

/-! ## A session that is created -/

/-- A change of held that another takes back. -/
theorem CardTook.undo {id : CardId} {n : Nat} (h : CardTook s t id fun c => { c with held := c.held + n })
    (k : CardTook t u id fun c => { c with held := c.held - n }) : ∀ j, u.card j = s.card j := by
  intro j
  by_cases hj : j = id
  · subst hj
    rw [k.1, h.1, Option.map_map]
    have hid : ((fun c : Card => { c with held := c.held - n }) ∘ fun c : Card => { c with held := c.held + n }) = id := by
      funext c
      change ({ c with held := c.held + n - n } : Card) = c
      rw [Nat.add_sub_cancel]
    rw [hid, Option.map_id_fun, id_eq]
  · rw [k.2 j hj, h.2 j hj]

theorem placeHold_eq (id : CardId) (n : Nat) (part : SessionPart) (s : State) :
    ∃ trail cards, placeHold id n part s = { s with
        trail := trail
        ret := { s.ret with cards := cards, journal := none, sessions := part.sessions s.ret.sessions } }
      ∧ ∀ u : State, u.ret.cards = cards → CardTook s u id fun c => { c with held := c.held + n } := by
  let e := holdEntry id (fun c => { c with held := c.held + n }) none part s
  have htook : CardTook s (journalled e s) id fun c => { c with held := c.held + n } :=
    cardTook_journalled id (fun c => { c with held := c.held + n }) (fun _ => rfl) none part s
  refine ⟨(journalled e s).trail, (journalled e s).ret.cards, ?_, fun u hu => htook.of_cards rfl hu⟩
  change journalled e s = _
  rw [journalled_eq, applyEntry_eq]
  rfl

/-- The state that a new session is placed in, before its START (R101). -/
def State.placed (s : State) (p : PosIx) (ses : Session) : State :=
  (placeHold ses.cardId ses.hold (.record p ses) s).setVol p fun v => { v with windDown := false }

theorem createSession_eq (p : PosIx) (ses : Session) (s : State) : createSession p ses s
    = if (s.vol p).orders.length < 4 then
        (((s.placed p ses).setVol p fun v => { v with
            orders := v.orders ++ [newOrder (.start ses.program ses.options ses.purchased)] }).setSession p
          fun o => o.map fun x => { x with startLimit := some s.ret.config.startLimit }).markChanged p
      else cancelSession p .machineNotReady ((s.placed p ses).markChanged p) := by
  obtain ⟨trail, cards, heq, -⟩ := placeHold_eq ses.cardId ses.hold (.record p ses) s
  have hroom : (s.placed p ses).queueHasRoom p = decide ((s.vol p).orders.length < 4) := by
    rw [State.queueHasRoom, State.placed, State.vol_setVol, if_pos rfl, heq]
    rfl
  have hconfig : (s.placed p ses).ret.config = s.ret.config := by
    rw [State.placed, heq]
    rfl
  change (if (s.placed p ses).queueHasRoom p = true then
    (((s.placed p ses).setVol p fun v => { v with
        orders := v.orders ++ [newOrder (.start ses.program ses.options ses.purchased)] }).setSession p
      fun o => o.map fun x => { x with startLimit := some (s.placed p ses).ret.config.startLimit }).markChanged p
    else cancelSession p .machineNotReady ((s.placed p ses).markChanged p)) = _
  rw [hroom, hconfig]
  exact if_congr decide_eq_true_iff rfl rfl

/-- A session that is created with room for its START (R67, R101). -/
theorem createSession_of_room (hroom : (s.vol p).orders.length < 4) (ses : Session) :
    let u := createSession p ses s
    CardTook s u ses.cardId (fun c => { c with held := c.held + ses.hold })
    ∧ u = { s with
        trail := u.trail
        ret := { s.ret with
          cards := u.ret.cards
          journal := none
          sessions := s.ret.sessions.set p.val (some { ses with startLimit := some s.ret.config.startLimit }) }
        pos := s.pos.set p.val
          { s.vol p with
            windDown := false, changed := true
            orders := (s.vol p).orders
              ++ [{ body := .start ses.program ses.options ses.purchased, owned := true, tag := none }] } } := by
  obtain ⟨trail, cards, heq, htook⟩ := placeHold_eq ses.cardId ses.hold (.record p ses) s
  have hses : ((s.placed p ses).setVol p fun v => { v with
      orders := v.orders ++ [newOrder (.start ses.program ses.options ses.purchased)] }).session p = some ses := by
    rw [State.session, State.placed, heq]
    exact Vector.getElem_set_self ..
  let ses' : Session := { ses with startLimit := some s.ret.config.startLimit }
  let placed : State := { s with
    trail := trail
    ret := { s.ret with cards := cards, journal := none, sessions := s.ret.sessions.set p.val (some ses) } }
  have hnew : createSession p ses s = (placed.setSession p fun _ => some ses').setVol p fun v => { v with
      windDown := false, changed := true
      orders := v.orders ++ [newOrder (.start ses.program ses.options ses.purchased)] } := by
    rw [createSession_eq, if_pos hroom, setSession_of_some hses fun x => { x with
      startLimit := some s.ret.config.startLimit }, State.placed, heq]
    refine (show _ = (((placed.setSession p fun _ => some ses').setVol p fun v => { v with windDown := false }).setVol p
      fun v => { v with
        orders := v.orders ++ [newOrder (.start ses.program ses.options ses.purchased)] }).setVol p fun v => { v with
          changed := true } from rfl).trans ?_
    rw [setVol_setVol, setVol_setVol]
  have hcards : (createSession p ses s).ret.cards = cards := by rw [hnew]; rfl
  refine ⟨htook _ hcards, ?_⟩
  rw [hcards, hnew]
  exact congrArg (fun sessions => ({ s with
    trail := placed.ret :: trail
    ret := { s.ret with cards := cards, journal := none, sessions := sessions }
    pos := s.pos.set p.val { s.vol p with
      windDown := false, changed := true
      orders := (s.vol p).orders
        ++ [{ body := .start ses.program ses.options ses.purchased, owned := true, tag := none }] } } : State))
    (Vector.set_set ..)

/-- A session whose START finds no room is cancelled at once (R36, R103). -/
theorem createSession_of_full (hfull : 4 ≤ (s.vol p).orders.length) (ses : Session) :
    let u := createSession p ses s
    RoomStep s u ∧ u.session p = none ∧ (∀ q, q ≠ p → u.session q = s.session q) ∧ (u.vol p).changed = true
    ∧ (∀ id, u.card id = s.card id) ∧ u.ret.settlements = s.ret.settlements
    ∧ u.ret.nextSettlement = s.ret.nextSettlement
    ∧ (∀ o ∈ (u.vol p).orders, o.body.isStart = true → o.owned = false)
    ∧ Declined s u ses.term ses.reqTag .machineNotReady ses.cardId := by
  obtain ⟨trail, cards, heq, htook⟩ := placeHold_eq ses.cardId ses.hold (.record p ses) s
  let w := (s.placed p ses).markChanged p
  have hw : w = { s with
      trail := trail
      pos := w.pos
      ret := { s.ret with cards := cards, journal := none, sessions := s.ret.sessions.set p.val (some ses) } } := by
    change (State.placed s p ses).markChanged p = _
    rw [State.placed, heq]
    rfl
  have hses : w.session p = some ses := by
    rw [hw]
    exact Vector.getElem_set_self ..
  have hother : ∀ q, q ≠ p → w.session q = s.session q := fun q hq => by
    rw [hw]
    exact session_set _ hq
  have hroom : RoomStep s w := by rw [hw]; rfl
  have hcards : w.ret.cards = cards := by rw [hw]
  have hsettled : w.ret.settlements = s.ret.settlements ∧ w.ret.nextSettlement = s.ret.nextSettlement := by
    rw [hw]
    exact ⟨rfl, rfl⟩
  obtain ⟨hcancelled, hdeclined, howned⟩ := cancelSession_spec hses .machineNotReady
  obtain ⟨⟨hgone, hothers, hchanged⟩, hsettlements, hnumber, -, hcard⟩ := hcancelled
  have hdecl : Declined s (cancelSession p .machineNotReady w) ses.term ses.reqTag .machineNotReady ses.cardId :=
    hdeclined.of_terminals (by rw [hw]) (by rw [hw])
  intro u
  rw [show u = cancelSession p .machineNotReady w from (createSession_eq p ses s).trans (if_neg (Nat.not_lt.mpr hfull))]
  exact ⟨hroom.trans (stirred_cancelSession (p := p) _ w).room, hgone, fun q hq => (hothers q hq).trans (hother q hq),
    hchanged, (htook w hcards).undo hcard, hsettlements.trans hsettled.1, hnumber.trans hsettled.2, howned, hdecl⟩

/-! ## A top-up that is recorded -/

/-- A session with the extension of a top-up, before its EXTEND (R112). -/
def Session.withTopup (ses : Session) (t : TermIx) (reqTag : Byte) (minutes increment : Nat) (limit : Option Nat) :
    Session :=
  { ses with
    hold := ses.hold + increment
    ext := some { minutes := minutes, hold := increment, term := t, reqTag := reqTag, limit := limit } }

/-- The state that a top-up is placed in, before its EXTEND (R112). -/
def State.toppedUp (s : State) (p : PosIx) (ses : Session) (t : TermIx) (reqTag : Byte) (minutes increment : Nat) : State :=
  placeHold ses.cardId increment (.record p (ses.withTopup t reqTag minutes increment none)) s

theorem recordTopup_eq (hs : s.session p = some ses) (t : TermIx) (reqTag : Byte) (minutes increment : Nat) :
    recordTopup p t reqTag minutes increment s
      = if (s.vol p).orders.length < 4 then
          ((s.toppedUp p ses t reqTag minutes increment).setVol p fun v => { v with
            orders := v.orders ++ [newOrder (.extend minutes)] }).setSession p fun o => o.map fun x =>
              { x with ext := x.ext.map fun e => { e with limit := some s.ret.config.startLimit } }
        else extensionFail p .machineNotReady (s.toppedUp p ses t reqTag minutes increment) := by
  obtain ⟨trail, cards, heq, -⟩ := placeHold_eq ses.cardId increment
    (.record p (ses.withTopup t reqTag minutes increment none)) s
  have hroom : (s.toppedUp p ses t reqTag minutes increment).queueHasRoom p
      = decide ((s.vol p).orders.length < 4) := by
    rw [State.queueHasRoom, State.toppedUp, heq]
    rfl
  have hconfig : (s.toppedUp p ses t reqTag minutes increment).ret.config = s.ret.config := by
    rw [State.toppedUp, heq]
  unfold recordTopup
  rw [hs]
  change (if (s.toppedUp p ses t reqTag minutes increment).queueHasRoom p = true then
    ((s.toppedUp p ses t reqTag minutes increment).setVol p fun v => { v with
      orders := v.orders ++ [newOrder (.extend minutes)] }).setSession p fun o => o.map fun x =>
        { x with ext := x.ext.map fun e => { e with
          limit := some (s.toppedUp p ses t reqTag minutes increment).ret.config.startLimit } }
    else extensionFail p .machineNotReady (s.toppedUp p ses t reqTag minutes increment)) = _
  rw [hroom, hconfig]
  exact if_congr decide_eq_true_iff rfl rfl

/-- A top-up with room for its EXTEND (R67, R112). -/
theorem recordTopup_of_room (hs : s.session p = some ses) (hroom : (s.vol p).orders.length < 4) (t : TermIx)
    (reqTag : Byte) (minutes increment : Nat) :
    let u := recordTopup p t reqTag minutes increment s
    CardTook s u ses.cardId (fun c => { c with held := c.held + increment })
    ∧ u = { s with
        trail := u.trail
        ret := { s.ret with
          cards := u.ret.cards
          journal := none
          sessions := s.ret.sessions.set p.val
            (some (ses.withTopup t reqTag minutes increment (some s.ret.config.startLimit))) }
        pos := s.pos.set p.val { s.vol p with
          orders := (s.vol p).orders ++ [{ body := .extend minutes, owned := true, tag := none }] } } := by
  obtain ⟨trail, cards, heq, htook⟩ := placeHold_eq ses.cardId increment
    (.record p (ses.withTopup t reqTag minutes increment none)) s
  have hses : ((s.toppedUp p ses t reqTag minutes increment).setVol p fun v => { v with
      orders := v.orders ++ [newOrder (.extend minutes)] }).session p
        = some (ses.withTopup t reqTag minutes increment none) := by
    rw [State.session, State.toppedUp, heq]
    exact Vector.getElem_set_self ..
  let placed : State := { s with
    trail := trail
    ret := { s.ret with
      cards := cards, journal := none
      sessions := s.ret.sessions.set p.val (some (ses.withTopup t reqTag minutes increment none)) } }
  have hnew : recordTopup p t reqTag minutes increment s = (placed.setVol p fun v => { v with
      orders := v.orders ++ [newOrder (.extend minutes)] }).setSession p fun _ =>
        some (ses.withTopup t reqTag minutes increment (some s.ret.config.startLimit)) := by
    rw [recordTopup_eq hs, if_pos hroom, setSession_of_some hses fun x => { x with
      ext := x.ext.map fun e => { e with limit := some s.ret.config.startLimit } }, State.toppedUp, heq]
    rfl
  have hcards : (recordTopup p t reqTag minutes increment s).ret.cards = cards := by rw [hnew]; rfl
  refine ⟨htook _ hcards, ?_⟩
  rw [hcards, hnew]
  exact congrArg (fun sessions => ({ s with
    trail := placed.ret :: trail
    ret := { s.ret with cards := cards, journal := none, sessions := sessions }
    pos := s.pos.set p.val { s.vol p with
      orders := (s.vol p).orders ++ [{ body := .extend minutes, owned := true, tag := none }] } } : State))
    (Vector.set_set ..)

/-- A top-up whose EXTEND finds no room fails at once (R36, R114). -/
theorem recordTopup_of_full (hs : s.session p = some ses) (hext : ses.ext = none)
    (hfull : 4 ≤ (s.vol p).orders.length) (t : TermIx) (reqTag : Byte) (minutes increment : Nat) :
    let u := recordTopup p t reqTag minutes increment s
    RoomStep s u
    ∧ u.session p = some (if ses.holding = true then
        { ses with
          state := .ending, holding := false, pauseLimit := none
          doneLimit := some (s.ret.config.doneLimit * 60) } else ses)
    ∧ (∀ q, q ≠ p → u.session q = s.session q)
    ∧ (∀ id, u.card id = s.card id) ∧ u.ret.settlements = s.ret.settlements
    ∧ u.ret.nextSettlement = s.ret.nextSettlement
    ∧ (∀ o ∈ (u.vol p).orders, o.body.isExtend = true → o.owned = false)
    ∧ Declined s u t reqTag .machineNotReady ses.cardId := by
  obtain ⟨trail, cards, heq, htook⟩ := placeHold_eq ses.cardId increment
    (.record p (ses.withTopup t reqTag minutes increment none)) s
  let w := s.toppedUp p ses t reqTag minutes increment
  have hw : w = { s with
      trail := trail
      ret := { s.ret with
        cards := cards, journal := none
        sessions := s.ret.sessions.set p.val (some (ses.withTopup t reqTag minutes increment none)) } } := heq
  have hses : w.session p = some (ses.withTopup t reqTag minutes increment none) := by
    rw [hw]
    exact Vector.getElem_set_self ..
  have hother : ∀ q, q ≠ p → w.session q = s.session q := fun q hq => by
    rw [hw]
    exact session_set _ hq
  have hroom : RoomStep s w := by rw [hw]; rfl
  have hcards : w.ret.cards = cards := by rw [hw]
  have hrest : w.ret.settlements = s.ret.settlements ∧ w.ret.nextSettlement = s.ret.nextSettlement
      ∧ w.ret.config = s.ret.config := by
    rw [hw]
    exact ⟨rfl, rfl, rfl⟩
  obtain ⟨hsettled, hnumber, hconfig⟩ := hrest
  obtain ⟨hsession, hcard, hdeclined, howned⟩ := extensionFail_spec hses rfl .machineNotReady
  have told := told_extensionFail p .machineNotReady w
  have hdecl : Declined s (extensionFail p .machineNotReady w) t reqTag .machineNotReady ses.cardId :=
    hdeclined.of_terminals (by rw [hw]) (by rw [hw])
  have hback : (ses.withTopup t reqTag minutes increment none).unextended
      { minutes := minutes, hold := increment, term := t, reqTag := reqTag, limit := none } = ses := by
    change ({ ses with hold := ses.hold + increment - increment, ext := none } : Session) = ses
    rw [Nat.add_sub_cancel, ← hext]
  rw [hback, hconfig] at hsession
  intro u
  rw [show u = extensionFail p .machineNotReady w from
    (recordTopup_eq hs t reqTag minutes increment).trans (if_neg (Nat.not_lt.mpr hfull))]
  exact ⟨hroom.trans told.room, hsession, fun q hq => (told.sessions q hq).trans (hother q hq),
    (htook w hcards).undo hcard, told.settlements.1.trans hsettled, told.settlements.2.trans hnumber, howned, hdecl⟩

/-! ## A CARD at a terminal -/

theorem busyFor_iff {i : Item} {tag : Byte} : i.busyFor tag = true ↔ ∃ a, i.body = .answer a true ∧ a.reqTag = tag := by
  unfold Item.busyFor
  constructor
  · intro h
    split at h
    · next a busy hbody =>
      obtain ⟨hbusy, hreq⟩ := Bool.and_eq_true_iff.mp h
      subst hbusy
      exact ⟨a, hbody, eq_of_beq hreq⟩
    · exact nomatch h
  · rintro ⟨a, hbody, hreq⟩
    rw [hbody]
    simp [hreq]

theorem isBusy_iff {i : Item} : i.isBusy = true ↔ ∃ tag, ∃ a, i.body = .answer a true ∧ a.reqTag = tag := by
  unfold Item.isBusy
  constructor
  · intro h
    split at h
    · next a busy hbody =>
      subst h
      exact ⟨a.reqTag, a, hbody, rfl⟩
    · exact nomatch h
  · rintro ⟨-, a, hbody, -⟩
    rw [hbody]

theorem repeats_iff (s : State) (x : TermIx) (tag : Byte) : s.repeats x tag = true
    ↔ (s.terminal x).request = some tag ∨ ((s.terminal x).request = none ∧ (s.terminal x).lastTag = some tag)
      ∨ ∃ i ∈ (s.terminal x).outbox, ∃ a, i.body = .answer a true ∧ a.reqTag = tag := by
  unfold State.repeats
  dsimp only
  rw [Bool.or_eq_true, Bool.or_eq_true, Bool.and_eq_true, beq_iff_eq, beq_iff_eq, Option.isNone_iff_eq_none,
    List.any_eq_true, or_assoc]
  simp only [busyFor_iff]

/-- A CARD at a terminal (R49 to R51). -/
theorem takeCard_spec (s : State) (t : TermIx) (r : CardRequest) :
    let v := s.terminal t
    let busy (i : Item) (tag : Byte) : Prop := ∃ a, i.body = .answer a true ∧ a.reqTag = tag
    let repeated : Prop := v.request = some r.reqTag ∨ (v.request = none ∧ v.lastTag = some r.reqTag)
      ∨ ∃ i ∈ v.outbox, busy i r.reqTag
    let decline (why : DeclineReason) (isBusy : Bool) : Item :=
      { body := .answer
          { reqTag := r.reqTag, decline := some why, amount := 0, minutes := 0, options := 0#4
            available := s.available r.cardId } isBusy
        tag := none }
    let pending : State := { s with term := s.term.set t.val { v with request := some r.reqTag } }
    let failed (why : DeclineReason) : Prop := takeCard t r s = { s with
      term := s.term.set t.val
        { v with request := some r.reqTag, outbox := placeAnswer (decline why false) v.outbox } }
    (repeated → takeCard t r s = s)
    ∧ (¬ repeated → v.request ≠ none →
      ((∃ i ∈ v.outbox, ∃ tag, busy i tag) → takeCard t r s = s)
      ∧ ((∀ i ∈ v.outbox, ∀ tag, ¬ busy i tag) → takeCard t r s = { s with
          term := s.term.set t.val
            { v with outbox := placeAnswer (decline .terminalBusy true) v.outbox } }))
    ∧ (¬ repeated → v.request = none →
      (posOf r.position = none → failed .noSuchMachine)
      ∧ ∀ p, posOf r.position = some p →
        (r.cardId = 0#64 → failed .unknownCard)
        ∧ (r.cardId ≠ 0#64 → (r.program.toNat = 0 ∨ 15 < r.program.toNat) → failed .noSuchProgram)
        ∧ (r.cardId ≠ 0#64 → 1 ≤ r.program.toNat → r.program.toNat ≤ 15 →
          takeCard t r s = takeRequest p t r pending)) := by
  intro v busy repeated decline pending failed
  have hrepeats : s.repeats t r.reqTag = true ↔ repeated := repeats_iff s t r.reqTag
  have hbusy : v.outbox.any Item.isBusy = true ↔ ∃ i ∈ v.outbox, ∃ tag, busy i tag := by
    rw [List.any_eq_true]
    simp only [isBusy_iff, busy]
  have hpending : ¬ repeated → v.request = none → takeCard t r s = match terminalChecks r with
      | .error reason => queueAnswer t (declineAnswer r.reqTag reason (s.available r.cardId)) false pending
      | .ok p => takeRequest p t r pending := fun hrep hreq => by
    unfold takeCard
    rw [if_neg (mt hrepeats.mp hrep), show s.terminal t = v from rfl, hreq]
    rfl
  have hfailed : ¬ repeated → v.request = none → ∀ why, terminalChecks r = .error why → failed why :=
    fun hrep hreq why hwhy => by
      have heq := hpending hrep hreq
      rw [hwhy] at heq
      exact heq.trans (setTerm_setTerm t (fun v => { v with request := some r.reqTag }) (fun v => { v with
        outbox := placeAnswer (decline why false) v.outbox }) s)
  refine ⟨fun h => if_pos (hrepeats.mpr h), fun hrep hreq => ⟨fun h => ?_, fun h => ?_⟩, fun hrep hreq =>
    ⟨fun hpos => hfailed hrep hreq _ ?_, fun p hpos => ⟨fun hid => hfailed hrep hreq _ ?_,
      fun hid hprog => hfailed hrep hreq _ ?_, fun hid h1 h15 => ?_⟩⟩⟩
  · unfold takeCard
    rw [if_neg (mt hrepeats.mp hrep), if_pos (Option.isSome_iff_ne_none.mpr hreq), if_pos (hbusy.mpr h)]
  · unfold takeCard
    rw [if_neg (mt hrepeats.mp hrep), if_pos (Option.isSome_iff_ne_none.mpr hreq), if_neg]
    · rfl
    · intro hany
      obtain ⟨i, hi, tag, hb⟩ := hbusy.mp hany
      exact h i hi tag hb
  · unfold terminalChecks
    rw [hpos]
  · unfold terminalChecks
    rw [hpos]
    dsimp only
    rw [if_pos hid]
  · unfold terminalChecks
    rw [hpos]
    dsimp only
    rw [if_neg hid, if_neg (by omega)]
  · have hok : terminalChecks r = .ok p := by
      unfold terminalChecks
      rw [hpos]
      dsimp only
      rw [if_neg hid, if_pos ⟨h1, h15⟩]
    rw [hpending hrep hreq, hok]

/-- Settles O49. -/
theorem requestOpensSession : Obligations.RequestOpensSession := by
  unfold Obligations.RequestOpensSession
  refine ⟨fun s p t r => ?_, fun s p t r why h => ?_, takeCard_spec⟩
  · intro asks holds
    refine ⟨fun why h => ?_, fun ses h hroom => ⟨_, takeRequest_create h, createSession_of_room hroom ses⟩,
      fun added increment ses h hs hroom => ⟨_, takeRequest_topup h, recordTopup_of_room hs hroom ..⟩,
      fun ses h hfull => ⟨_, takeRequest_create h, ?_⟩,
      fun added increment ses h hs hfull => ⟨_, takeRequest_topup h,
        recordTopup_of_full hs (authorize_unextended h hs) hfull ..⟩⟩
    · rw [takeRequest_error h]
      refine ⟨?_, declined_of_sent rfl rfl (fun y i hi _ => hi) (by rw [State.card, cards_sendDecline]; rfl),
        fun x hx => terminal_sendDecline hx ..⟩
      obtain ⟨box, heq⟩ := sendDecline_eq t r.reqTag why r.cardId s
      rw [heq]
    · obtain ⟨hterm, htag, hid⟩ := authorize_owner h
      rw [← hterm, ← htag, ← hid]
      exact createSession_of_full hfull ses
  · rw [takeRequest_error h]
    exact sendDecline_eq t r.reqTag why r.cardId s

end Sys2Proof.Machine
end

section
/-! What HALT, HEAT_OFF and display orders make of an order queue (R27, R32, R35 to R40). -/

namespace Sys2Proof.Machine

variable {s t u : State} {p q : PosIx}

/-! ## Room in a full queue -/

/-- The newest displaceable order makes room (R40). -/
theorem makeRoom_eq {before after : List Order} {o : Order} (hfull : 4 ≤ (before ++ o :: after).length)
    (ho : o.displaceable = true) (hafter : ∀ x ∈ after, x.displaceable = false) :
    makeRoom (before ++ o :: after) = (before ++ after, some o) := by
  have hnot : ∀ x ∈ after.reverse, ¬ x.displaceable = true := fun x hx => by
    rw [hafter x (List.mem_reverse.mp hx)]
    exact Bool.false_ne_true
  unfold makeRoom
  rw [if_neg (show ¬ _ < Config.orderCapacity from Nat.not_lt.mpr hfull), List.reverse_append, List.reverse_cons,
    List.append_assoc,
    List.eraseP_append_right _ hnot, List.find?_append, List.find?_eq_none.mpr hnot, List.singleton_append,
    List.eraseP_cons_of_pos ho, List.find?_cons_of_pos ho, List.reverse_append, List.reverse_reverse,
    List.reverse_reverse]
  rfl

/-! ## The place of an order -/

/-- Behind the order in delivery of a lawful queue every order is undelivered. -/
theorem takeWhile_sent {x : Order} {xs : List Order} (h : QueueLaw (x :: xs)) (hx : x.undelivered = false) :
    (x :: xs).takeWhile (fun o => o.tag.isSome) = [x] := by
  have hsent : x.tag.isSome = true := by
    simpa [Order.undelivered] using hx
  have hrest : xs.takeWhile (fun o => o.tag.isSome) = [] := by
    cases xs with
    | nil => rfl
    | cons y ys =>
      obtain ⟨-, htags, -, -⟩ := h
      rw [List.takeWhile_cons_of_neg]
      rw [htags y List.mem_cons_self]
      exact Bool.false_ne_true
  rw [List.takeWhile_cons_of_pos (p := fun o : Order => o.tag.isSome) hsent, hrest]

theorem takeWhile_unsent {x : Order} {xs : List Order} (hx : x.undelivered = true) :
    (x :: xs).takeWhile (fun o => o.tag.isSome) = [] := by
  refine List.takeWhile_cons_of_neg ?_
  have : x.tag = none := by simpa [Order.undelivered] using hx
  rw [this]
  exact Bool.false_ne_true

/-- Where a HEAT_OFF stands among undelivered orders (R38). -/
theorem insertBehindHalt_eq (o : Order) {xs : List Order} (h : ∀ x ∈ xs, x.undelivered = true) :
    ∃ halts rest, xs = halts ++ rest ∧ insertBehindHalt o xs = halts ++ o :: rest
      ∧ (∀ x ∈ halts, x.body = .halt) ∧ ∀ x after, rest = x :: after → x.body = .halt → halts ≠ [] := by
  cases xs with
  | nil => exact ⟨[], [], rfl, rfl, fun _ hx => (nomatch hx), fun _ _ e => (nomatch e)⟩
  | cons x xs =>
    change ∃ halts rest, _ ∧ (if x.undelivered && x.body == .halt then x :: o :: xs else o :: x :: xs) = _ ∧ _
    by_cases hb : x.body = .halt
    · rw [if_pos (by rw [h x List.mem_cons_self, hb]; rfl)]
      exact ⟨[x], xs, rfl, rfl, fun y hy => by rw [List.mem_singleton.mp hy, hb], fun _ _ _ _ e => (nomatch e)⟩
    · rw [if_neg fun e => hb (beq_iff_eq.mp (Bool.and_eq_true_iff.mp e).2)]
      refine ⟨[], x :: xs, rfl, rfl, fun _ hy => (nomatch hy), fun y after e hy => ?_⟩
      rw [(List.cons.inj e).1] at hb
      exact absurd hy hb

/-- The place of a HALT or HEAT_OFF in a lawful queue: behind the order in delivery, and HEAT_OFF behind a HALT (R37,
R38). -/
theorem place_eq (w : Urgent) {q : List Order} (h : QueueLaw q) :
    ∃ halts rest, q = (q.takeWhile fun o => o.tag.isSome) ++ halts ++ rest
      ∧ w.place q = (q.takeWhile fun o => o.tag.isSome) ++ halts ++ newOrder w.body :: rest
      ∧ (w.body = .halt → halts = []) ∧ (∀ o ∈ halts, o.body = .halt)
      ∧ (w.body = .heatOff → ∀ o after, rest = o :: after → o.body = .halt → halts ≠ []) := by
  cases q with
  | nil =>
    refine ⟨[], [], rfl, ?_, fun _ => rfl, fun _ hx => (nomatch hx), fun _ _ _ e => (nomatch e)⟩
    cases w <;> rfl
  | cons x xs =>
    have htail : ∀ y ∈ xs, y.undelivered = true := fun y hy => by
      obtain ⟨-, htags, -, -⟩ := h
      rw [Order.undelivered, htags y hy]
      rfl
    cases hx : x.undelivered with
    | true =>
      rw [takeWhile_unsent hx]
      cases w with
      | halt =>
        refine ⟨[], x :: xs, rfl, ?_, fun _ => rfl, fun _ hy => (nomatch hy), fun e => (nomatch e)⟩
        exact if_pos hx
      | heatOff =>
        obtain ⟨halts, rest, hq, hplace, hhalts, hrest⟩ := insertBehindHalt_eq (newOrder .heatOff)
          (xs := x :: xs) (List.forall_mem_cons.mpr ⟨hx, htail⟩)
        exact ⟨halts, rest, hq, (if_pos hx).trans hplace, fun e => (nomatch e), hhalts, fun _ => hrest⟩
    | false =>
      rw [takeWhile_sent h hx]
      have hnot : ¬ x.undelivered = true := by rw [hx]; exact Bool.false_ne_true
      cases w with
      | halt =>
        refine ⟨[], xs, rfl, ?_, fun _ => rfl, fun _ hy => (nomatch hy), fun e => (nomatch e)⟩
        exact if_neg hnot
      | heatOff =>
        obtain ⟨halts, rest, hq, hplace, hhalts, hrest⟩ := insertBehindHalt_eq (newOrder .heatOff) htail
        refine ⟨halts, rest, congrArg (x :: ·) hq, ?_, fun e => (nomatch e), hhalts, fun _ => hrest⟩
        exact (if_neg hnot).trans (congrArg (x :: ·) hplace)

/-! ## The steps of a HALT -/

/-- A position with a queue. -/
def State.holding (s : State) (p : PosIx) (q : List Order) : State := s.setVol p fun v => { v with orders := q }

/-- A removed order is reported, and an owed display order tried (R27, R35). -/
def removalTold (p : PosIx) (o : Order) (s : State) : State := serveOwed p (reportCancelled withdraw p o s)

/-- HALT takes the next order away that it may, if there is one (R37). -/
def stripOnce (p : PosIx) (s : State) : State :=
  match (s.vol p).orders.find? Urgent.halt.cancels with
  | none => s
  | some o => removalTold p o (s.holding p ((s.vol p).orders.eraseP Urgent.halt.cancels))

/-- A step that removes an order that is no display order (R35). -/
theorem makeStep_removal (p : PosIx) (n : UrgentStep) {o : Order} (h : n.removed = some o)
    (hd : o.body.display = false) (s : State) : makeStep withdraw p n s = removalTold p o (s.holding p n.orders) :=
  makeStep_report withdraw p n s o h hd

theorem display_of_cancels {w : Urgent} {o : Order} (h : w.cancels o = true) : o.body.display = false := by
  cases w with
  | halt =>
    have hs : o.body.strippable = true := (Bool.and_eq_true_iff.mp h).2
    cases hb : o.body with
    | disable => rw [hb] at hs; exact nomatch hs
    | enable => rw [hb] at hs; exact nomatch hs
    | _ => rfl
  | heatOff =>
    have hb : o.body = .heatOn := by simpa using (Bool.and_eq_true_iff.mp h).2
    rw [hb]
    rfl

/-- While HALT may take an order away its next step does (R37). -/
theorem askUrgentFor_strip {o : Order} (h : (s.vol p).orders.find? Urgent.halt.cancels = some o) (k : Nat) :
    askUrgentFor withdraw .halt p (k + 1) s = askUrgentFor withdraw .halt p k (stripOnce p s) := by
  have hcancels := List.find?_some h
  have hstep : Urgent.halt.step (s.vol p).orders
      = { orders := (s.vol p).orders.eraseP Urgent.halt.cancels, removed := some o, finished := false } := by
    unfold Urgent.step
    rw [if_pos (List.any_eq_true.mpr ⟨o, List.mem_of_find?_eq_some h, hcancels⟩), h]
    rfl
  rw [askUrgentFor_next _ _ _ _ _ (by rw [hstep]), hstep, makeStep_removal p _ rfl (display_of_cancels hcancels)]
  unfold stripOnce
  rw [h]

theorem askUrgentFor_iterate (n : Nat) : ∀ (k : Nat) (s : State), n ≤ k →
    ∃ m, k - n ≤ m ∧ askUrgentFor withdraw .halt p k s = askUrgentFor withdraw .halt p m ((stripOnce p)^[n] s) := by
  induction n with
  | zero => exact fun k s _ => ⟨k, Nat.le_refl _, rfl⟩
  | succ n ih =>
    intro k s hk
    rw [Function.iterate_succ_apply]
    cases h : (s.vol p).orders.find? Urgent.halt.cancels with
    | none =>
      have hsame : stripOnce p s = s := by
        unfold stripOnce
        rw [h]
      rw [hsame]
      obtain ⟨m, hm, heq⟩ := ih k s (by omega)
      exact ⟨m, by omega, heq⟩
    | some o =>
      obtain ⟨k, rfl⟩ : ∃ j, k = j + 1 := ⟨k - 1, by omega⟩
      obtain ⟨m, hm, heq⟩ := ih k (stripOnce p s) (by omega)
      exact ⟨m, by omega, (askUrgentFor_strip h k).trans heq⟩

/-! ## The last steps -/

/-- An order that waits already is merged (R37, R38). -/
theorem askUrgentFor_merged {w : Urgent} (hnone : ∀ o ∈ (s.vol p).orders, w.cancels o = false)
    (hmerge : w.merges (s.vol p).orders = true) (k : Nat) : askUrgentFor withdraw w p (k + 1) s = s := by
  have hstep : w.step (s.vol p).orders = { orders := (s.vol p).orders, removed := none, finished := true } := by
    rcases w.step_cases (s.vol p).orders with ⟨before, o, after, hq, hc, -, -⟩ | ⟨-, ⟨-, he⟩ | ⟨hm, -, -⟩ | ⟨hm, -, -⟩⟩
    · rw [hnone o (by rw [hq]; simp)] at hc
      exact nomatch hc
    · exact he
    · exact nomatch hmerge.symm.trans hm
    · exact nomatch hmerge.symm.trans hm
  rw [askUrgentFor_last _ _ _ _ _ (by rw [hstep]), hstep, makeStep_none _ _ _ _ rfl]
  exact setVol_same p _ rfl

/-- An order that finds room is placed (R37, R38). -/
theorem askUrgentFor_placed {w : Urgent} (hnone : ∀ o ∈ (s.vol p).orders, w.cancels o = false)
    (hmerge : w.merges (s.vol p).orders = false) (hroom : (s.vol p).orders.length < 4) (k : Nat) :
    askUrgentFor withdraw w p (k + 1) s = s.holding p (w.place (s.vol p).orders) := by
  have hstep : w.step (s.vol p).orders
      = { orders := w.place (s.vol p).orders, removed := none, finished := true } := by
    rcases w.step_cases (s.vol p).orders with ⟨before, o, after, hq, hc, -, -⟩ | ⟨-, ⟨hm, -⟩ | ⟨-, -, he⟩ | ⟨-, hfull, -⟩⟩
    · rw [hnone o (by rw [hq]; simp)] at hc
      exact nomatch hc
    · exact nomatch hmerge.symm.trans hm
    · exact he
    · exact absurd hroom (Nat.not_lt.mpr hfull)
  rw [askUrgentFor_last _ _ _ _ _ (by rw [hstep]), hstep, makeStep_none _ _ _ _ rfl]
  rfl

/-- The newest order that may make room for another leaves a full queue (R40). -/
theorem step_full {w : Urgent} {before after : List Order} {o : Order} (hq : (s.vol p).orders = before ++ o :: after)
    (hnone : ∀ o ∈ (s.vol p).orders, w.cancels o = false) (hmerge : w.merges (s.vol p).orders = false)
    (hfull : 4 ≤ (s.vol p).orders.length) (ho : o.displaceable = true) (hafter : ∀ x ∈ after, x.displaceable = false) :
    w.step (s.vol p).orders = { orders := before ++ after, removed := some o, finished := false } := by
  rcases w.step_cases (s.vol p).orders with ⟨before, x, after, hb, hc, -, -⟩ | ⟨-, ⟨hm, -⟩ | ⟨-, hroom, -⟩ | ⟨-, -, he⟩⟩
  · rw [hnone x (by rw [hb]; simp)] at hc
    exact nomatch hc
  · exact nomatch hmerge.symm.trans hm
  · exact absurd hroom (Nat.not_lt.mpr hfull)
  · rw [he, hq, makeRoom_eq (hq ▸ hfull) ho hafter,
      show (before ++ o :: after).any Order.displaceable = true from List.any_eq_true.mpr ⟨o, by simp, ho⟩]
    rfl

/-- A display order makes room: it is owed, and the order is placed (R40). -/
theorem askUrgentFor_displaced {w : Urgent} {before after : List Order} {o : Order} (hlaw : QueueLaw (s.vol p).orders)
    (hq : (s.vol p).orders = before ++ o :: after) (hnone : ∀ o ∈ (s.vol p).orders, w.cancels o = false)
    (hmerge : w.merges (s.vol p).orders = false) (hfull : 4 ≤ (s.vol p).orders.length) (ho : o.displaceable = true)
    (hafter : ∀ x ∈ after, x.displaceable = false) (hd : o.body.display = true) (k : Nat) :
    askUrgentFor withdraw w p (k + 2) s
      = (s.setVol p fun v => { v with owed := true }).holding p (w.place (before ++ after)) := by
  have hstep := step_full hq hnone hmerge hfull ho hafter
  let u := (s.setVol p fun v => { v with owed := true }).holding p (before ++ after)
  have hmade : makeStep withdraw p (w.step (s.vol p).orders) s = u := by
    rw [hstep]
    unfold makeStep afterRemoval
    dsimp only
    rw [if_pos hd]
    exact (setVol_setVol p (fun v => { v with orders := before ++ after }) (fun v => { v with owed := true }) s).trans
      (setVol_setVol p (fun v => { v with owed := true }) (fun v => { v with orders := before ++ after }) s).symm
  have horders : (u.vol p).orders = before ++ after := by
    change ((State.setVol p (fun v => { v with orders := before ++ after }) _).vol p).orders = _
    rw [State.vol_setVol, if_pos rfl]
  have hsub : ∀ x ∈ before ++ after, x ∈ (s.vol p).orders := fun x hx => by
    rw [hq]
    exact (List.mem_append.mp hx).elim (List.mem_append_left _) fun h =>
      List.mem_append_right _ (List.mem_cons_of_mem _ h)
  have hroom : (before ++ after).length < 4 := by
    have := hlaw.1
    rw [hq, List.length_append, List.length_cons] at this
    have : Config.orderCapacity = 4 := rfl
    rw [List.length_append]
    omega
  rw [askUrgentFor_next _ _ _ _ _ (by rw [hstep]), hmade, askUrgentFor_placed ?_ ?_ (by rw [horders]; exact hroom), horders]
  · exact setVol_setVol p (fun v => { v with orders := before ++ after }) (fun v => { v with
      orders := w.place (before ++ after) }) _
  · rw [horders]
    exact fun x hx => hnone x (hsub x hx)
  · rw [horders]
    refine Bool.eq_false_iff.mpr fun h => ?_
    obtain ⟨x, hx, hb⟩ := List.any_eq_true.mp h
    have : w.merges (s.vol p).orders = true := List.any_eq_true.mpr ⟨x, hsub x hx, hb⟩
    rw [hmerge] at this
    exact nomatch this

/-! ## The steps of a HEAT_OFF -/

/-- An undelivered HEAT_ON absorbs the HEAT_OFF (R38 step 1). -/
theorem askUrgentFor_absorbed {before after : List Order} {o : Order} (hq : (s.vol p).orders = before ++ o :: after)
    (ho : Urgent.heatOff.cancels o = true) (hbefore : ∀ x ∈ before, Urgent.heatOff.cancels x = false) (k : Nat) :
    askUrgentFor withdraw .heatOff p (k + 1) s = removalTold p o (s.holding p (before ++ after)) := by
  have hnot : ∀ x ∈ before, ¬ Urgent.heatOff.cancels x = true := fun x hx => by
    rw [hbefore x hx]
    exact Bool.false_ne_true
  have hstep : Urgent.heatOff.step (s.vol p).orders
      = { orders := before ++ after, removed := some o, finished := true } := by
    rw [hq]
    unfold Urgent.step
    rw [if_pos (List.any_eq_true.mpr ⟨o, by simp, ho⟩), List.eraseP_append_right _ hnot, List.eraseP_cons_of_pos ho,
      List.find?_append, List.find?_eq_none.mpr hnot, List.find?_cons_of_pos ho]
    rfl
  rw [askUrgentFor_last _ _ _ _ _ (by rw [hstep]), hstep]
  exact makeStep_removal p _ rfl (display_of_cancels ho) s

/-- A full queue where an order that is no display order makes room for a HEAT_OFF, and what its report leaves (R40). -/
def YieldsRoom (p : PosIx) (s t : State) : Prop :=
  (∀ o ∈ (s.vol p).orders, Urgent.heatOff.cancels o = false) ∧ Urgent.heatOff.merges (s.vol p).orders = false
    ∧ 4 ≤ (s.vol p).orders.length ∧ ∃ before o after, (s.vol p).orders = before ++ o :: after
      ∧ o.displaceable = true ∧ (∀ x ∈ after, x.displaceable = false) ∧ o.body.display = false
      ∧ t = removalTold p o (s.holding p (before ++ after))

theorem askUrgentFor_yields (h : YieldsRoom p s t) (k : Nat) :
    askUrgentFor withdraw .heatOff p (k + 1) s = askUrgentFor withdraw .heatOff p k t := by
  obtain ⟨hnone, hmerge, hfull, before, o, after, hq, ho, hafter, hd, rfl⟩ := h
  have hstep := step_full hq hnone hmerge hfull ho hafter
  rw [askUrgentFor_next _ _ _ _ _ (by rw [hstep]), hstep, makeStep_removal p _ rfl hd]

/-- The steps that make room for a HEAT_OFF, one after the other (R40). -/
theorem askUrgentFor_chain : ∀ (us : List State) (s u : State) (k : Nat), us.head? = some s → us.getLast? = some u →
    us.IsChain (YieldsRoom p) → us.length ≤ k + 1 →
    ∃ m, k + 1 = m + us.length ∧ askUrgentFor withdraw .heatOff p k s = askUrgentFor withdraw .heatOff p m u
  | [], _, _, _, hs, _, _, _ => nomatch hs
  | [x], s, u, k, hs, hu, _, _ => ⟨k, rfl, by rw [← Option.some.inj hs, ← Option.some.inj (show some x = some u from hu)]⟩
  | x :: y :: rest, s, u, k, hs, hu, hchain, hk => by
    obtain ⟨hxy, hrest⟩ := List.isChain_cons_cons.mp hchain
    obtain rfl : x = s := Option.some.inj hs
    obtain ⟨k, rfl⟩ : ∃ j, k = j + 1 := ⟨k - 1, by simp at hk; omega⟩
    obtain ⟨m, hm, heq⟩ := askUrgentFor_chain (y :: rest) y u k rfl (by rwa [List.getLast?_cons_cons] at hu) hrest
      (by simpa using hk)
    exact ⟨m, by simp only [List.length_cons] at hm ⊢; omega, (askUrgentFor_yields hxy k).trans heq⟩

/-! ## The obligation -/

/-- Settles O54. -/
theorem queueCoalescing : Obligations.QueueCoalescing := by
  unfold Obligations.QueueCoalescing
  refine ⟨fun q body hq hb => ⟨hq.queueDisplay hb, rfl⟩, fun s p => ?_⟩
  intro queue holding told has movable stands placed stripped strip full yields
  have hstrip : strip = stripOnce p := rfl
  have hstripped : stripped = Urgent.halt.cancels := rfl
  have hmovable : ∀ o : Order, movable o = o.displaceable := fun o => rfl
  have hheatOn : ∀ q : List Order, ¬ has .heatOn q ↔ ∀ o ∈ q, Urgent.heatOff.cancels o = false := fun q => by
    rw [not_cancels_iff]
    simp only [has, not_exists, not_and]
  have hmerges : ∀ (w : Urgent) (q : List Order), w.merges q = true ↔ has w.body q := fun w q => by
    simp [Urgent.merges, has, Order.undelivered]
  have hstands : ∀ (w : Urgent) (q : List Order) (u : State), QueueLaw q →
      stands w.body q u (u.holding p (w.place q)) := fun w q u hq => by
    obtain ⟨halts, rest, hsplit, hplace, h1, h2, h3⟩ := place_eq w hq
    refine ⟨halts, rest, hsplit, ?_, h1, h2, h3⟩
    rw [hplace]
    rfl
  have hplaced : ∀ (w : Urgent) (u : State) (m : Nat), QueueLaw (queue u) →
      (∀ o ∈ queue u, w.cancels o = false) → ¬ has w.body (queue u) → 2 ≤ m →
      placed w.body u (askUrgentFor withdraw w p m u) := fun w u m hlaw hnone hno hm => by
    obtain ⟨k, rfl⟩ : ∃ k, m = k + 2 := ⟨m - 2, by omega⟩
    have hmerge : w.merges (queue u) = false := Bool.eq_false_iff.mpr (mt (hmerges w _).mp hno)
    refine ⟨fun hroom => ?_, fun before o after hq hfull ho hafter hd => ?_⟩
    · rw [askUrgentFor_placed hnone hmerge hroom]
      exact hstands w _ u hlaw
    · rw [askUrgentFor_displaced hlaw hq hnone hmerge hfull ho hafter hd]
      refine hstands w _ _ (hlaw.sublist ?_)
      rw [hq]
      exact List.Sublist.append_left (List.sublist_cons_self o after) before
  refine ⟨fun n hn => ?_, fun us hlen hhead hchain u hlast hlaw => ?_, fun hq => ⟨queueLaw_moves (askHalt_moves p .refl) hq,
    queueLaw_moves (askHeatOff_moves p .refl) hq, haltStands_iff.mp (haltStands_askHalt hq)⟩, ⟨rfl, rfl⟩, fun o =>
    ⟨fun hb hon => ?_, fun hb => ?_, fun hown hb => ?_, fun hown hb => ?_⟩⟩
  · intro u hnone hlaw
    obtain ⟨m, hm, heq⟩ := askUrgentFor_iterate (p := p) n 12 s (by omega)
    have hask : askHalt p s = askUrgentFor withdraw .halt p m u := heq
    refine ⟨fun hhas => ?_, fun hno => ?_⟩
    · obtain ⟨k, rfl⟩ : ∃ k, m = k + 1 := ⟨m - 1, by omega⟩
      rw [hask]
      exact askUrgentFor_merged hnone ((hmerges .halt _).mpr hhas) k
    · rw [hask]
      exact hplaced .halt u m hlaw hnone hno (by omega)
  · have hyields : ∀ x y, full x ∧ yields x y → YieldsRoom p x y := by
      rintro x y ⟨⟨hfull, hon, hoff⟩, before, o, after, hq, ho, hafter, hd, rfl⟩
      exact ⟨(hheatOn _).mp hon, Bool.eq_false_iff.mpr (mt (hmerges .heatOff _).mp hoff), hfull, before, o, after, hq, ho,
        hafter, hd, rfl⟩
    obtain ⟨m, hm, heq⟩ := askUrgentFor_chain us s u 12 hhead hlast (hchain.imp hyields) (by omega)
    have hask : askHeatOff p s = askUrgentFor withdraw .heatOff p m u := heq
    obtain ⟨k, rfl⟩ : ∃ k, m = k + 2 := ⟨m - 2, by omega⟩
    refine ⟨fun before o after hq htag hb hbefore => ?_, fun hon hoff => ?_, fun hon hoff => ?_⟩
    · rw [hask]
      refine askUrgentFor_absorbed hq (by simp [Urgent.cancels, Order.undelivered, htag, hb]) (fun x hx => ?_) _
      refine Bool.eq_false_iff.mpr fun hc => ?_
      have := hbefore x hx
      simp [Urgent.cancels, Order.undelivered] at hc
      exact this.elim (fun h => h hc.1) fun h => h hc.2
    · rw [hask]
      exact askUrgentFor_merged ((hheatOn _).mp hon) ((hmerges .heatOff _).mpr hoff) _
    · rw [hask]
      exact hplaced .heatOff u _ hlaw ((hheatOn _).mp hon) hoff (by omega)
  · unfold reportCancelled
    rcases hb with h | h | h | h
    · rw [h]
    · rw [h]
    · rw [h]
    · rw [h]
      cases hbody : o.body with
      | heatOn => exact absurd hbody hon
      | _ => rfl
  · unfold reportCancelled
    rw [hb]
  · unfold reportCancelled
    rw [hown]
    cases hbody : o.body with
    | start => rfl
    | _ => rw [hbody] at hb; exact nomatch hb
  · unfold reportCancelled
    rw [hown]
    cases hbody : o.body with
    | extend => rfl
    | _ => rw [hbody] at hb; exact nomatch hb

end Sys2Proof.Machine
end

section
/-! The start that finds retention valid (R187, R189 to R191): what it keeps of the store, the settlement records and
the cards it leaves, and the HEAT_OFF of every configured position. -/

namespace Sys2Proof.Machine

variable {s t u : State}

/-! ## What settling changes -/

/-- What settling sessions changes: the cards, settlements, sessions and journal of the store, a pending budget taken,
and the volatile positions. -/
structure Settles (s t : State) : Prop where
  state : ∃ ret trail pos, t = { s with ret := ret, trail := trail, pos := pos }
  store : ∃ cards settlements next sessions budget pending journal, t.ret = { s.ret with
    cards := cards, settlements := settlements, nextSettlement := next, sessions := sessions, budget := budget
    pendingBudget := pending, journal := journal }
  budget : t.ret.pendingBudget.getD t.ret.budget = s.ret.pendingBudget.getD s.ret.budget
  journal : s.ret.journal = none → t.ret.journal = none

theorem Settles.trans (h : Settles s t) (h' : Settles t u) : Settles s u where
  state := by
    obtain ⟨_, _, _, h⟩ := h.state
    obtain ⟨ret, trail, pos, h'⟩ := h'.state
    exact ⟨ret, trail, pos, by rw [h', h]⟩
  store := by
    obtain ⟨_, _, _, _, _, _, _, h⟩ := h.store
    obtain ⟨a, b, c, d, e, f, g, h'⟩ := h'.store
    exact ⟨a, b, c, d, e, f, g, by rw [h', h]⟩
  budget := h'.budget.trans h.budget
  journal := h'.journal ∘ h.journal

/-- A change of the volatile positions alone. -/
theorem Settles.of_pos (hstate : t = { s with pos := t.pos }) : Settles s t := by
  have hret : t.ret = s.ret := by rw [hstate]
  exact ⟨⟨s.ret, s.trail, t.pos, hstate⟩, ⟨_, _, _, _, _, _, _, hret⟩, by rw [hret], fun h => hret ▸ h⟩

theorem settles_releaseHolds (s : State) : Settles s (releaseHolds s) :=
  ⟨⟨_, _, s.pos, rfl⟩, ⟨_, _, _, _, _, _, _, rfl⟩, rfl, id⟩

theorem settles_journalled (e : JournalEntry) (s : State) : Settles s (journalled e s) := by
  rw [journalled_eq, applyEntry_eq]
  exact ⟨⟨_, _, s.pos, rfl⟩, ⟨_, _, _, _, _, _, _, rfl⟩, rfl, fun _ => rfl⟩

theorem rollForward_eq (s : State) : ∃ trail, rollForward s = { s with ret := s.ret.settled, trail := trail } :=
  ⟨(rollForward s).trail, by
    rw [← rollForward_ret]
    unfold rollForward
    split <;> rfl⟩

theorem journal_settled (r : Retained) : r.settled.journal = none := by
  unfold Retained.settled
  split
  · assumption
  · rfl

theorem settles_rollForward (s : State) : Settles s (rollForward s) := by
  obtain ⟨trail, h⟩ := rollForward_eq s
  rw [h]
  refine ⟨⟨_, _, s.pos, rfl⟩, ?_, ?_, fun _ => journal_settled _⟩
  · unfold Retained.settled
    split
    · exact ⟨_, _, _, _, _, _, _, rfl⟩
    · rw [applyEntry_eq]
      exact ⟨_, _, _, _, _, _, _, rfl⟩
  · change s.ret.settled.pendingBudget.getD s.ret.settled.budget = _
    unfold Retained.settled
    split
    · rfl
    · rw [applyEntry_eq]

theorem settles_activatePending (s : State) : Settles s (activatePending s) := by
  unfold activatePending
  split
  · exact .of_pos rfl
  · next n h =>
    split
    · exact ⟨⟨_, _, s.pos, rfl⟩, ⟨_, _, _, _, _, _, _, rfl⟩, by rw [h]; rfl, id⟩
    · exact .of_pos rfl

theorem settles_takePendingBudget (s : State) : Settles s (takePendingBudget s) := by
  obtain ⟨_, h⟩ := takePendingBudget_eq s
  rw [h]
  exact ⟨⟨_, _, s.pos, rfl⟩, ⟨_, _, _, _, _, _, _, rfl⟩, rfl, id⟩

theorem settles_settleAtStart (h : Idle s) {reason : EndReason} (hr : reason = .powerLoss ∨ reason = .restarted)
    (p : PosIx) :
    Settles s (settleAtStart reason s p) := by
  cases hs : s.session p with
  | none =>
    rw [settleAtStart_of_none hs]
    exact .of_pos rfl
  | some ses =>
    rw [h.settleAtStart hr hs]
    exact ((settles_journalled _ s).trans (settles_activatePending _)).trans (.of_pos rfl)

theorem settles_settleSessions (h : Idle s) {reason : EndReason}
    (hr : reason = .powerLoss ∨ reason = .restarted) : Settles s (settleSessions reason s) :=
  (settleSessions_induction hr (P := fun _ u => Settles s u)
    (fun p _ _ hu step => step.trans (settles_settleAtStart hu hr p)) h (.of_pos rfl)).2

theorem settles_starting (kind : StartKind) (s : State) : Settles (clearVolatile kind s) (s.starting kind) := by
  have hcomm : s.starting kind = rollForward (clearVolatile kind s) := by
    unfold State.starting rollForward clearVolatile
    dsimp only
    split <;> rfl
  exact hcomm ▸ settles_rollForward (clearVolatile kind s)

theorem journal_starting (kind : StartKind) (s : State) : (s.starting kind).ret.journal = none :=
  (congrArg Retained.journal (rollForward_ret s)).trans (journal_settled s.ret)

/-- The whole settling, from the roll-forward on. -/
theorem settles_settledAll (kind : StartKind) (s : State) : Settles (s.starting kind) (s.settledAll kind) :=
  ((settles_settleSessions (idle_clearVolatile kind _) (endReason_cases kind)).trans
    (settles_releaseHolds _)).trans (settles_takePendingBudget _)

theorem pendingBudget_settledAll (kind : StartKind) (s : State) : (s.settledAll kind).ret.pendingBudget = none := by
  unfold State.settledAll
  obtain ⟨_, h⟩ := takePendingBudget_eq (releaseHolds (settleSessions kind.endReason (s.starting kind)))
  rw [h]

/-- The settled store: the tables, the configuration and the faults are kept, and a pending budget is taken (R190,
R191). -/
theorem ret_settledAll (kind : StartKind) (s : State) : ∃ cards settlements next sessions,
    (s.settledAll kind).ret = { s.ret with
      cards := cards, settlements := settlements, nextSettlement := next, sessions := sessions
      budget := s.ret.pendingBudget.getD s.ret.budget, pendingBudget := none, journal := none } := by
  have whole := (settles_starting kind s).trans (settles_settledAll kind s)
  obtain ⟨cards, settlements, next, sessions, budget, pending, journal, hret⟩ := whole.store
  have hjournal := (settles_settledAll kind s).journal (journal_starting kind s)
  have hpending := pendingBudget_settledAll kind s
  have hbudget := whole.budget
  rw [hpending] at hbudget
  rw [hret] at hjournal hpending hbudget
  refine ⟨cards, settlements, next, sessions, ?_⟩
  rw [hret, show journal = none from hjournal, show pending = none from hpending, show budget = _ from hbudget]
  rfl

/-! ## The settlement records -/

/-- The record that a start leaves of the session of a position (R190). -/
def State.startRecord (s : State) (reason : EndReason) (p : PosIx) : Option (PosIx × CardId × Nat × Nat × EndReason) :=
  ((s.session p).filter fun x => x.state != .starting).map fun x => (p, x.cardId, x.hold, x.unusedCharge, reason)

/-- What the obligation names of a settlement record. -/
def Settlement.summary (r : Settlement) : PosIx × CardId × Nat × Nat × EndReason :=
  (r.position, r.cardId, r.hold, r.charged, r.reason)

theorem charge_atStart {reason : EndReason} (hr : reason = .powerLoss ∨ reason = .restarted) (ses : Session)
    (policy : Policy) : ses.charge reason policy = ses.unusedCharge :=
  Session.charge_of_cut policy (.inr hr)

theorem nextNumber_ne (n : Nat) : nextNumber Config.maxSettlementNumber n ≠ n := by
  unfold nextNumber Config.maxSettlementNumber
  split <;> omega

theorem ret_settleAtStart (h : Idle s) {reason : EndReason} (hr : reason = .powerLoss ∨ reason = .restarted)
    {p : PosIx} {ses : Session} (hs : s.session p = some ses) : ∃ budget pending,
    (settleAtStart reason s p).ret
      = { (journalled (endEntry reason p ses s) s).ret with budget := budget, pendingBudget := pending } := by
  rw [h.settleAtStart hr hs]
  obtain ⟨budget, pending, _, he⟩ := activatePending_eq (journalled (endEntry reason p ses s) s)
  exact ⟨budget, pending, by rw [he]; rfl⟩

/-- Settling one position appends the record of its session (R190). -/
theorem settlements_settleAtStart (h : Idle s) {reason : EndReason} (hr : reason = .powerLoss ∨ reason = .restarted)
    (hfree : NumberFree s) (p : PosIx) :
    NumberFree (settleAtStart reason s p)
      ∧ ∃ more, (settleAtStart reason s p).ret.settlements = s.ret.settlements ++ more
        ∧ more.map Settlement.summary = (s.startRecord reason p).toList := by
  cases hs : s.session p with
  | none =>
    rw [settleAtStart_of_none hs]
    exact ⟨hfree, [], by simp, by simp [State.startRecord, hs]⟩
  | some ses =>
    obtain ⟨_, _, hret⟩ := ret_settleAtStart h hr hs
    rw [journalled_ret, applyEntry_eq] at hret
    unfold NumberFree
    by_cases hst : ses.state = .starting
    · have hentry : (endEntry reason p ses s).settlement = none := by rw [endEntry, if_pos hst]; rfl
      have hsame : (settleAtStart reason s p).ret.settlements = s.ret.settlements
          ∧ (settleAtStart reason s p).ret.nextSettlement = s.ret.nextSettlement := by
        rw [hret, hentry]
        exact ⟨rfl, rfl⟩
      rw [hsame.1, hsame.2]
      exact ⟨hfree, [], by simp, by simp [State.startRecord, hs, hst]⟩
    · let rec1 := ses.settlement p (.plain reason) s.ret.nextSettlement
      have hentry : (endEntry reason p ses s).settlement = some rec1 := by rw [endEntry, if_neg hst]; rfl
      have hnew : settlementNew (some rec1) s.ret.settlements = true := by
        unfold settlementNew
        cases hl : s.ret.settlements.getLast? with
        | none => rfl
        | some x => simpa [rec1, Session.settlement] using hfree x hl
      have happend : (settleAtStart reason s p).ret.settlements = s.ret.settlements ++ [rec1]
          ∧ (settleAtStart reason s p).ret.nextSettlement
            = nextNumber Config.maxSettlementNumber s.ret.nextSettlement := by
        rw [hret, hentry]
        exact ⟨by simp [settlementsAfter, hnew], by simp only [numberAfter, hnew]; rfl⟩
      rw [happend.1, happend.2]
      refine ⟨fun x hx => ?_, [rec1], rfl, ?_⟩
      · rw [List.getLast?_concat] at hx
        cases hx
        exact (nextNumber_ne _).symm
      · simp [State.startRecord, hs, Option.filter, hst, Settlement.summary, rec1, Session.settlement, Ending.plain,
          charge_atStart hr]

/-- The sessions of the positions still to be settled stand as they were. -/
def SessionsKept (s : State) (rest : List PosIx) (u : State) : Prop :=
  rest.Nodup ∧ ∀ q ∈ rest, u.session q = s.session q

theorem SessionsKept.step {reason : EndReason} (hr : reason = .powerLoss ∨ reason = .restarted) {p : PosIx}
    {rest : List PosIx} (hu : Idle u) (h : SessionsKept s (p :: rest) u) :
    SessionsKept s rest (settleAtStart reason u p) := by
  obtain ⟨hp, hnd⟩ := List.nodup_cons.mp h.1
  refine ⟨hnd, fun q hq => ?_⟩
  rw [session_settleAtStart hu hr, if_neg (ne_of_mem_of_not_mem hq hp).symm]
  exact h.2 q (List.mem_cons_of_mem _ hq)

theorem sessionsKept_all (s : State) : SessionsKept s allPositions s := ⟨nodup_allPositions, fun _ _ => rfl⟩

/-- A start appends the records of the sessions in rising order of position (R190). -/
theorem settlements_settleSessions (h : Idle s) {reason : EndReason}
    (hr : reason = .powerLoss ∨ reason = .restarted) (hfree : NumberFree s) :
    ∃ more, (settleSessions reason s).ret.settlements = s.ret.settlements ++ more
      ∧ more.map Settlement.summary = allPositions.filterMap (s.startRecord reason) := by
  have all := settleSessions_induction hr
    (P := fun rest u => SessionsKept s rest u ∧ NumberFree u ∧ ∃ more, u.ret.settlements = s.ret.settlements ++ more
      ∧ more.map Settlement.summary ++ rest.filterMap (s.startRecord reason)
        = allPositions.filterMap (s.startRecord reason))
    (fun p rest u hu ⟨kept, free, more, hmore, hsum⟩ => by
      obtain ⟨free, last, hlast, hsumLast⟩ := settlements_settleAtStart hu hr free p
      refine ⟨kept.step hr hu, free, more ++ last, by rw [hlast, hmore, List.append_assoc], ?_⟩
      have hrecord : u.startRecord reason p = s.startRecord reason p := by
        unfold State.startRecord
        rw [kept.2 p List.mem_cons_self]
      rw [List.map_append, hsumLast, hrecord, ← hsum, List.append_assoc]
      congr 1
      rw [List.filterMap_cons]
      cases s.startRecord reason p <;> rfl)
    h ⟨sessionsKept_all s, hfree, [], by simp, by simp⟩
  obtain ⟨-, -, more, hmore, hsum⟩ := all.2
  exact ⟨more, hmore, by simpa using hsum⟩

/-! ## The cards -/

/-- A card after the session that names it is settled (R68, R69, R190). -/
def Session.endedCard (ses : Session) (c : Card) : Card :=
  if ses.state = .starting then { c with held := c.held - ses.hold } else c.captured ses.hold ses.unusedCharge

/-- A card after the session of a position is settled. -/
def State.cardSettled (s : State) (id : CardId) (c : Card) (p : PosIx) : Card :=
  match s.session p with
  | none => c
  | some ses => if ses.cardId = id then ses.endedCard c else c

theorem cardTook_endEntry (s : State) {reason : EndReason} (hr : reason = .powerLoss ∨ reason = .restarted)
    (p : PosIx) (ses : Session) :
    CardTook s (journalled (endEntry reason p ses s) s) ses.cardId ses.endedCard := by
  by_cases hst : ses.state = .starting
  · have hcard : ses.endedCard = fun c => { c with held := c.held - ses.hold } := funext fun _ => if_pos hst
    have hentry : endEntry reason p ses s = holdEntry ses.cardId ses.endedCard none (.removal p) s := by
      rw [hcard]
      exact if_pos hst
    rw [hentry]
    exact cardTook_journalled ses.cardId ses.endedCard (fun _ => by rw [hcard]) none (.removal p) s
  · have hcard : ses.endedCard = fun c => c.captured ses.hold ses.unusedCharge := funext fun _ => if_neg hst
    let rec1 := ses.settlement p (.plain reason) s.ret.nextSettlement
    have hentry : endEntry reason p ses s = holdEntry ses.cardId ses.endedCard (some rec1) (.removal p) s := by
      rw [hcard, endEntry, if_neg hst, charge_atStart hr]
    rw [hentry]
    exact cardTook_journalled ses.cardId ses.endedCard (fun _ => by rw [hcard]; rfl) (some rec1) (.removal p) s

theorem card_settleAtStart (h : Idle s) {reason : EndReason} (hr : reason = .powerLoss ∨ reason = .restarted)
    (p : PosIx) (id : CardId) :
    (settleAtStart reason s p).card id = (s.card id).map fun c => s.cardSettled id c p := by
  unfold State.cardSettled
  cases hs : s.session p with
  | none => rw [settleAtStart_of_none hs]; simp
  | some ses =>
    obtain ⟨_, _, hret⟩ := ret_settleAtStart h hr hs
    have hcard : (settleAtStart reason s p).card id = (journalled (endEntry reason p ses s) s).card id := by
      unfold State.card
      rw [hret]
    have took := cardTook_endEntry s hr p ses
    rw [hcard]
    dsimp only
    split
    · next e => exact e ▸ took.1
    · next e => rw [took.2 id (Ne.symm e)]; simp

/-- A card behind a start has gone through the ends of all sessions that name it. -/
theorem card_settleSessions (h : Idle s) {reason : EndReason} (hr : reason = .powerLoss ∨ reason = .restarted)
    (id : CardId) :
    (settleSessions reason s).card id = (s.card id).map fun c => allPositions.foldl (s.cardSettled id) c := by
  have all := settleSessions_induction hr
    (P := fun rest u => SessionsKept s rest u
      ∧ (u.card id).map (fun c => rest.foldl (s.cardSettled id) c)
        = (s.card id).map fun c => allPositions.foldl (s.cardSettled id) c)
    (fun p rest u hu ⟨kept, hcard⟩ => by
      refine ⟨kept.step hr hu, ?_⟩
      have hsame : ∀ c, u.cardSettled id c p = s.cardSettled id c p := fun c => by
        unfold State.cardSettled
        rw [kept.2 p List.mem_cons_self]
      rw [card_settleAtStart hu hr, ← hcard, Option.map_map]
      congr 1
      exact funext fun c => congrArg (rest.foldl (s.cardSettled id)) (hsame c))
    h ⟨sessionsKept_all s, rfl⟩
  simpa using all.2.2

/-- A session that names another card leaves this one. -/
theorem cardSettled_of_ne {id : CardId} {p : PosIx} (h : ∀ x, s.session p = some x → x.cardId ≠ id) (c : Card) :
    s.cardSettled id c p = c := by
  unfold State.cardSettled
  split
  · rfl
  · next x hx => exact if_neg (h x hx)

theorem foldl_cardSettled_of_ne {id : CardId} (ps : List PosIx)
    (h : ∀ p ∈ ps, ∀ x, s.session p = some x → x.cardId ≠ id) (c : Card) : ps.foldl (s.cardSettled id) c = c := by
  induction ps with
  | nil => rfl
  | cons p rest ih =>
    rw [List.foldl_cons, cardSettled_of_ne (h p List.mem_cons_self)]
    exact ih fun q hq => h q (List.mem_cons_of_mem _ hq)

/-- A card that one session names goes through the end of that session alone. -/
theorem foldl_cardSettled_of_one {id : CardId} {p : PosIx} {ses : Session} (hs : s.session p = some ses)
    (hid : ses.cardId = id) (hone : ∀ q y, q ≠ p → s.session q = some y → y.cardId ≠ id) (c : Card) :
    allPositions.foldl (s.cardSettled id) c = ses.endedCard c := by
  obtain ⟨before, after, hall⟩ := List.append_of_mem (mem_allPositions p)
  have hnd := nodup_allPositions
  rw [hall] at hnd ⊢
  obtain ⟨-, hafter, hdisjoint⟩ := List.nodup_append.mp hnd
  have hp : s.cardSettled id c p = ses.endedCard c := by
    unfold State.cardSettled
    rw [hs]
    exact if_pos hid
  rw [List.foldl_append, foldl_cardSettled_of_ne before, List.foldl_cons, hp, foldl_cardSettled_of_ne after]
  · exact fun q hq y => hone q y fun e => (List.nodup_cons.mp hafter).1 (e ▸ hq)
  · exact fun q hq y => hone q y fun e => hdisjoint q hq p List.mem_cons_self e

theorem card_releaseHolds (id : CardId) (s : State) :
    (releaseHolds s).card id = (s.card id).map fun c => { c with held := 0 } := by
  change (s.ret.cards.map fun c : Card => { c with held := 0 }).find? (fun c => c.id == id) = _
  rw [List.find?_map]
  rfl

/-! ## The records and cards of the settled store -/

theorem starting_of_empty (kind : StartKind) (h : s.ret.journal = none) :
    s.starting kind = clearVolatile kind s := by
  unfold State.starting rollForward
  rw [h]

theorem cards_takePendingBudget (s : State) : (takePendingBudget s).ret.cards = s.ret.cards := by
  obtain ⟨_, he⟩ := takePendingBudget_eq s
  rw [he]

theorem settlements_takePendingBudget (s : State) : (takePendingBudget s).ret.settlements = s.ret.settlements := by
  obtain ⟨_, he⟩ := takePendingBudget_eq s
  rw [he]

theorem settlements_releaseHolds (s : State) : (releaseHolds s).ret.settlements = s.ret.settlements := rfl

theorem settlements_settledAll (kind : StartKind) (h : s.ret.journal = none) (hfree : NumberFree s) :
    ∃ more, (s.settledAll kind).ret.settlements = s.ret.settlements ++ more
      ∧ more.map Settlement.summary = allPositions.filterMap (s.startRecord kind.endReason) := by
  rw [State.settledAll, settlements_takePendingBudget, settlements_releaseHolds, starting_of_empty kind h]
  exact settlements_settleSessions (idle_clearVolatile kind s) (endReason_cases kind) hfree

theorem card_settledAll (kind : StartKind) (h : s.ret.journal = none) (id : CardId) : (s.settledAll kind).card id
    = (s.card id).map fun c => { allPositions.foldl (s.cardSettled id) c with held := 0 } := by
  have hsettled := card_settleSessions (idle_clearVolatile kind s) (endReason_cases kind) id
  rw [State.settledAll, State.card, cards_takePendingBudget, starting_of_empty kind h]
  generalize settleSessions kind.endReason (clearVolatile kind s) = u at hsettled
  rw [show (clearVolatile kind s).card id = s.card id from rfl,
    show (clearVolatile kind s).cardSettled id = s.cardSettled id from rfl] at hsettled
  rw [← State.card, card_releaseHolds, hsettled, Option.map_map]
  rfl

theorem held_releaseHolds (s : State) : ∀ c ∈ (releaseHolds s).ret.cards, c.held = 0 := by
  intro c hc
  obtain ⟨_, -, rfl⟩ := List.mem_map.mp hc
  rfl

theorem held_settledAll (kind : StartKind) (s : State) : ∀ c ∈ (s.settledAll kind).ret.cards, c.held = 0 := by
  rw [State.settledAll, cards_takePendingBudget]
  exact held_releaseHolds _

/-! ## The start-up orders and the sag -/

/-- A position behind a start (R189, R191). -/
def PosState.atStart (configured : Bool) : PosState :=
  { PosState.new with changed := configured, orders := if configured then [newOrder .heatOff] else [] }

/-- The start-up orders of idle positions, each in one. -/
theorem startOrders_of_idle (h : Idle s) :
    startOrders s = s.setAllVol fun p _ => PosState.atStart (s.configured p) := by
  have general : ∀ (conf : PosIx → Bool) (ps : List PosIx), ps.Nodup → ∀ u : State, (∀ p, u.configured p = conf p) →
      (∀ p ∈ ps, ∃ changed, u.vol p = { PosState.new with changed := changed }) →
      ps.foldl (fun s p =>
        (startHeatOff p s).setVol p fun v => { v with changed := (startHeatOff p s).configured p }) u
        = ps.foldl (fun s p => s.setVol p fun _ => PosState.atStart (conf p)) u := by
    intro conf ps
    induction ps with
    | nil => exact fun _ _ _ _ => rfl
    | cons p rest ih =>
      intro hnd u hconf hnew
      obtain ⟨hp, hnd⟩ := List.nodup_cons.mp hnd
      obtain ⟨changed, hv⟩ := hnew p List.mem_cons_self
      have step : (startHeatOff p u).setVol p (fun v => { v with changed := (startHeatOff p u).configured p })
          = u.setVol p fun _ => PosState.atStart (conf p) := by
        unfold startHeatOff
        rw [hconf]
        cases hc : conf p
        · change u.setVol p (fun v => { v with changed := u.configured p }) = _
          rw [hconf, hc]
          exact congrArg (fun v => ({ u with pos := u.pos.set p.val v } : State))
            (show ({ u.vol p with changed := false } : PosState) = _ by rw [hv]; rfl)
        · rw [if_pos rfl, askHeatOff_of_empty (by rw [hv]; rfl), setVol_setVol]
          change u.setVol p (fun v => { v with orders := [newOrder .heatOff], changed := u.configured p }) = _
          rw [hconf, hc]
          exact congrArg (fun v => ({ u with pos := u.pos.set p.val v } : State))
            (show ({ u.vol p with orders := [newOrder .heatOff], changed := true } : PosState) = _ by rw [hv]; rfl)
      rw [List.foldl_cons, List.foldl_cons, step]
      refine ih hnd _ hconf fun q hq => ?_
      rw [State.vol_setVol, if_neg (ne_of_mem_of_not_mem hq hp).symm]
      exact hnew q (List.mem_cons_of_mem _ hq)
  rw [startOrders_eq, State.setAllVol]
  exact general s.configured allPositions nodup_allPositions s (fun _ => rfl) fun p _ => h.vol p

theorem idle_sampleSag (h : Idle s) : Idle (sampleSag s) := by
  unfold sampleSag
  split <;> exact h.of_same ⟨rfl, rfl⟩ rfl rfl

/-- The record of a sag that a start finds (R135, R155). -/
def sagRecord (number : Nat) : FaultRecord :=
  { number := number, code := 23, position := none, severity := .notice, minute := none, settlement := none
    detail := none }

theorem sampleSag_frame (s : State) : ∃ ret trail, sampleSag s = { s with
    ret := ret, trail := trail, heat := { s.heat with sag := if s.pins.sag then .asserted else .normal } } := by
  unfold sampleSag
  split
  · exact ⟨_, _, rfl⟩
  · exact ⟨s.ret, s.trail, rfl⟩

theorem ret_sampleSag_of_low (h : s.pins.sag = false) : (sampleSag s).ret = s.ret := by
  rw [sampleSag, if_neg (by simp [h])]
  rfl

/-- The record of a sag joins the fault queue (R135, R156, R157). -/
theorem ret_sampleSag_of_high (h : s.pins.sag = true) (hclock : s.clock.valid = false) :
    (sampleSag s).ret = { s.ret with
      faults := (if 32 ≤ s.ret.faults.length then dropForOverflow s.ret.faults else s.ret.faults)
        ++ [sagRecord s.ret.nextFault]
      nextFault := nextNumber 65535 s.ret.nextFault
      overflow := s.ret.overflow || decide (32 ≤ s.ret.faults.length) } := by
  have hminute : (s.setHeat fun h => { h with sag := .asserted }).minuteNow = none := by
    unfold State.minuteNow
    exact if_neg (by simp [hclock])
  rw [sampleSag, if_pos h, raiseNotice, appendFault, hminute]
  rfl

/-- What sampling SAG keeps of the store. -/
theorem store_sampleSag (s : State) : ∃ faults next overflow,
    (sampleSag s).ret = { s.ret with faults := faults, nextFault := next, overflow := overflow } := by
  unfold sampleSag
  split
  · exact ⟨_, _, _, rfl⟩
  · exact ⟨_, _, _, rfl⟩

theorem length_dropForOverflow {q : List FaultRecord} (h : q ≠ []) : (dropForOverflow q).length + 1 = q.length := by
  have hpos := List.length_pos_iff.mpr h
  unfold dropForOverflow
  split
  · next hany =>
    obtain ⟨r, hr, hp⟩ := List.any_eq_true.mp hany
    rw [List.length_eraseP_of_mem hr hp]
    omega
  · rw [List.length_tail]
    omega

/-! ## The start as a whole -/

theorem ret_setAllVol (f : PosIx → PosState → PosState) (s : State) : (s.setAllVol f).ret = s.ret := by
  have general : ∀ (ps : List PosIx) (u : State), (ps.foldl (fun s p => s.setVol p (f p)) u).ret = u.ret := by
    intro ps
    induction ps with
    | nil => exact fun _ => rfl
    | cons p rest ih => exact fun u => ih (u.setVol p (f p))
  exact general allPositions s

theorem ret_startOrders (h : Idle s) : (startOrders s).ret = s.ret := by
  rw [startOrders_of_idle h]
  exact ret_setAllVol _ s

theorem vol_startOrders (h : Idle s) (p : PosIx) : (startOrders s).vol p = PosState.atStart (s.configured p) := by
  rw [startOrders_of_idle h]
  exact vol_setAllVol _ s p

/-- The store behind a start: the settled one, with the record of a sag. -/
theorem ret_warmActions (kind : StartKind) (s : State) :
    (warmActions kind s).ret = (sampleSag (s.settledAll kind)).ret := by
  exact (congrArg State.ret (warmActions_eq kind s)).trans
    ((State.setLink_ret _ _).trans (ret_startOrders (idle_sampleSag (idle_settledAll kind s).1)))

theorem vol_warmActions (kind : StartKind) (s : State) (p : PosIx) :
    (warmActions kind s).vol p = PosState.atStart ((sampleSag (s.settledAll kind)).configured p) := by
  exact (congrArg (State.vol · p) (warmActions_eq kind s)).trans
    ((State.vol_setLink_same _ _ _).trans (vol_startOrders (idle_sampleSag (idle_settledAll kind s).1) p))

theorem startOrders_frame (h : Idle s) : ∃ pos, startOrders s = { s with pos := pos } :=
  ⟨_, (startOrders_of_idle h).trans (setAllVol_eq _ s)⟩

/-- The volatile state behind a start, but for the positions. -/
theorem warmActions_frame (kind : StartKind) (s : State) : ∃ ret trail pos, warmActions kind s =
    { clearVolatile kind s with
      ret := ret, trail := trail, pos := pos
      heat := { HeatState.new with sag := if s.pins.sag then .asserted else .normal } } := by
  obtain ⟨_, _, _, hsettled⟩ := ((settles_starting kind s).trans (settles_settledAll kind s)).state
  obtain ⟨_, _, hsag⟩ := sampleSag_frame (s.settledAll kind)
  obtain ⟨_, horders⟩ := startOrders_frame (idle_sampleSag (idle_settledAll kind s).1)
  rw [warmActions_eq, horders, hsag, hsettled]
  exact ⟨_, _, _, rfl⟩

theorem pins_settledAll (kind : StartKind) (s : State) : (s.settledAll kind).pins = s.pins
    ∧ (s.settledAll kind).clock = { minute := 0, second := 0, valid := false } := by
  obtain ⟨_, _, _, h⟩ := ((settles_starting kind s).trans (settles_settledAll kind s)).state
  rw [h]
  exact ⟨rfl, rfl⟩

/-- What a start keeps of the store (R190, R191). -/
theorem store_warmActions (kind : StartKind) (s : State) :
    ∃ cards settlements next sessions faults nextFault overflow, (warmActions kind s).ret = { s.ret with
      cards := cards, settlements := settlements, nextSettlement := next, sessions := sessions
      budget := s.ret.pendingBudget.getD s.ret.budget, pendingBudget := none, journal := none
      faults := faults, nextFault := nextFault, overflow := overflow } := by
  obtain ⟨_, _, _, _, hsettled⟩ := ret_settledAll kind s
  obtain ⟨_, _, _, hsag⟩ := store_sampleSag (s.settledAll kind)
  rw [ret_warmActions, hsag, hsettled]
  exact ⟨_, _, _, _, _, _, _, rfl⟩

theorem cards_warmActions (kind : StartKind) (s : State) :
    (warmActions kind s).ret.cards = (s.settledAll kind).ret.cards := by
  obtain ⟨_, _, _, hsag⟩ := store_sampleSag (s.settledAll kind)
  rw [ret_warmActions, hsag]

theorem settlements_warmActions (kind : StartKind) (s : State) :
    (warmActions kind s).ret.settlements = (s.settledAll kind).ret.settlements := by
  obtain ⟨_, _, _, hsag⟩ := store_sampleSag (s.settledAll kind)
  rw [ret_warmActions, hsag]

theorem session_warmActions (kind : StartKind) (s : State) (p : PosIx) : (warmActions kind s).session p = none := by
  obtain ⟨_, _, _, hsag⟩ := store_sampleSag (s.settledAll kind)
  have hsame : (warmActions kind s).ret.sessions = (s.settledAll kind).ret.sessions := by rw [ret_warmActions, hsag]
  rw [State.session, hsame, ← State.session]
  exact (idle_settledAll kind s).2 p

theorem card_warmActions (kind : StartKind) (h : s.ret.journal = none) (id : CardId) : (warmActions kind s).card id
    = (s.card id).map fun c => { allPositions.foldl (s.cardSettled id) c with held := 0 } := by
  rw [State.card, cards_warmActions, ← State.card]
  exact card_settledAll kind h id

theorem configured_sampleSag_settledAll (kind : StartKind) (s : State) (p : PosIx) :
    (sampleSag (s.settledAll kind)).configured p = s.configured p := by
  obtain ⟨_, _, _, hsag⟩ := store_sampleSag (s.settledAll kind)
  obtain ⟨_, _, _, _, hsettled⟩ := ret_settledAll kind s
  rw [State.configured, State.record, hsag, hsettled]
  rfl

/-- The fault queue behind a start that finds SAG low is the one before it. -/
theorem faults_warmActions_of_low (kind : StartKind) (h : s.pins.sag = false) :
    (warmActions kind s).ret.faults = s.ret.faults ∧ (warmActions kind s).ret.nextFault = s.ret.nextFault
      ∧ (warmActions kind s).ret.overflow = s.ret.overflow := by
  obtain ⟨_, _, _, _, hsettled⟩ := ret_settledAll kind s
  rw [ret_warmActions, ret_sampleSag_of_low (by rw [(pins_settledAll kind s).1]; exact h), hsettled]
  exact ⟨rfl, rfl, rfl⟩

/-- The fault queue behind a start that finds SAG asserted (R135, R157). -/
theorem faults_warmActions_of_high (kind : StartKind) (h : s.pins.sag = true) :
    (warmActions kind s).ret.faults
        = (if 32 ≤ s.ret.faults.length then dropForOverflow s.ret.faults else s.ret.faults)
          ++ [sagRecord s.ret.nextFault]
      ∧ (warmActions kind s).ret.nextFault = nextNumber 65535 s.ret.nextFault
      ∧ (warmActions kind s).ret.overflow = (s.ret.overflow || decide (32 ≤ s.ret.faults.length)) := by
  obtain ⟨_, _, _, _, hsettled⟩ := ret_settledAll kind s
  obtain ⟨hpins, hclock⟩ := pins_settledAll kind s
  rw [ret_warmActions, ret_sampleSag_of_high (by rw [hpins]; exact h) (by rw [hclock]), hsettled]
  exact ⟨rfl, rfl, rfl⟩

theorem runStart_of_valid (kind : StartKind) (h : s.ret.valid = true) :
    runStart kind s = warmActions kind { s with power := { s.power with waiting := false } } := by
  rw [runStart, if_pos h]

/-! ## The rows that start the part -/

/-- The part as its start actions find it (R187). -/
def State.toStart (strap1 strap0 : Bool) (s : State) : State := { s with
  trail := []
  power := { vdd := true, resetHeld := false, waiting := false }
  pins := { s.pins with strap1 := strap1, strap0 := strap0 } }

theorem exec_powerUp_of_valid (hvalid : s.ret.valid = true) (hv : s.power.vdd = false) (hr : s.power.resetHeld = false)
    (strap1 strap0 : Bool) :
    exec (.powerUp strap1 strap0) s = .next (warmActions .warmStart (s.toStart strap1 strap0)) := by
  change execPowerUp strap1 strap0 s = _
  rw [execPowerUp, if_neg (by simp [hv]), if_neg (by simp [setStraps, hr]), runStart_of_valid _ (by exact hvalid)]
  simp only [setStraps, State.toStart, hr]

theorem exec_resetPin_of_valid (hvalid : s.ret.valid = true) (hv : s.power.vdd = true) (hr : s.power.resetHeld = true)
    (strap1 strap0 : Bool) : exec (.resetPin strap1 strap0) s
      = .next (warmActions (if s.power.waiting then .warmStart else .resetPin) (s.toStart strap1 strap0)) := by
  change execResetPin strap1 strap0 s = _
  rw [execResetPin, if_pos hr, if_pos (by exact hv), runStart_of_valid _ (by exact hvalid)]
  simp only [setStraps, State.toStart, hv]

theorem power_of_live (hl : s.live = true) : s.power = { vdd := true, resetHeld := false, waiting := false } := by
  simp only [State.live, Bool.and_eq_true, Bool.not_eq_true'] at hl
  obtain ⟨⟨hvdd, hheld⟩, hwaiting⟩ := hl
  generalize s.power = power at hvdd hheld hwaiting
  obtain ⟨vdd, held, waiting⟩ := power
  cases hvdd
  cases hheld
  cases hwaiting
  rfl

/-- The RESTART reply's last stop bit starts the part, by either row (R177; log entry 9). -/
theorem exec_restartReply {f : ReplyFrame} {rest : List ReplyFrame} (hvalid : s.ret.valid = true) (hl : s.live = true)
    (hs : s.link.sending = true) (ht : s.link.transmit = f :: rest) (hf : f.type = 0x7F#8) (hok : f.status = .ok)
    (strap1 strap0 : Bool) : exec (.restartRequest strap1 strap0) s
      = .next (warmActions .restartRequest { s.toStart strap1 strap0 with
          link := { s.link with transmit := rest, sending := false }, lastSent := f.wire.map sentByte })
      ∧ exec .replyFrameSent s = exec (.restartRequest s.pins.strap1 s.pins.strap0) s := by
  have ahead : s.fresh.restartReplyAhead = true := by
    simp [State.restartReplyAhead, ht, hf, hok]
  have hpower := power_of_live hl
  have hrestart : ∀ a b, exec (.restartRequest a b) s = .next (frameSentOnLink (setStraps a b s.fresh)) := fun a b => by
    rw [show exec (.restartRequest a b) s = execRestartRequest a b s from rfl, execRestartRequest,
      taking_of_live _ hl, if_pos (by rw [ahead, Bool.and_true]; exact hs)]
  constructor
  · have hpop : popFrame (setStraps strap1 strap0 s.fresh) = { s.toStart strap1 strap0 with
        link := { s.link with transmit := rest, sending := false }, lastSent := f.wire.map sentByte } := by
      simp only [popFrame, setStraps, ht, State.setLink, State.toStart, hpower]
    rw [hrestart, frameSentOnLink, if_pos (by exact ahead), hpop, runStart_of_valid _ (by exact hvalid)]
    rfl
  · rw [hrestart, show exec .replyFrameSent s = execReplyFrameSent s from rfl, execReplyFrameSent,
      taking_of_live _ hl, if_pos (by exact hs)]
    rfl

theorem endReason_eq (kind : StartKind) : kind.endReason = if kind = .warmStart then .powerLoss else .restarted := by
  cases kind <;> rfl

/-- Settles O52: the start as a whole, reached by each of the rows. -/
theorem warmStartSettlesSessions : Obligations.WarmStartSettlesSessions := by
  unfold Obligations.WarmStartSettlesSessions
  intro s strap1 strap0 hvalid warm
  have start : ∀ (kind : StartKind) (u : State), u.ret = s.ret →
      u.pins = { sag := s.pins.sag, strap1 := strap1, strap0 := strap0 } →
      u.power = { vdd := true, resetHeld := false, waiting := false } → warm kind (warmActions kind u) := by
    intro kind u hret hpins hpower
    have hsag : u.pins.sag = s.pins.sag := by rw [hpins]
    have hsession : ∀ p, u.session p = s.session p := fun p => by rw [State.session, hret]; rfl
    have hcard : ∀ id, u.card id = s.card id := fun id => by rw [State.card, hret]; rfl
    have hconf : ∀ p, u.configured p = s.configured p := fun p => by
      rw [State.configured, State.record, hret]; rfl
    obtain ⟨_, _, _, hframe⟩ := warmActions_frame kind u
    obtain ⟨_, _, _, _, _, _, _, hstore⟩ := store_warmActions kind u
    refine ⟨?_, ?_, ?_, ?_, ?_, ?_, session_warmActions kind u, fun p => ?_, ?_, ?_, ?_, ?_, ?_, ?_, ?_, ?_, ?_, ?_,
      ?_, fun hlow => ?_, fun hhigh => ?_, fun hjournal => ⟨fun hfree => ?_, fun id hother => ?_, ?_⟩⟩
    · rw [hframe]; exact hpower
    · rw [hframe]; rfl
    · intro x; rw [hframe]; simp [clearVolatile, State.terminal]
    · rw [hframe]; rfl
    · rw [hframe, ← hsag]; rfl
    · rw [hframe]; change LinkState.start u.pins.rate kind = _; rw [hpins]; rfl
    · rw [vol_warmActions, configured_sampleSag_settledAll, hconf]; rfl
    · rw [hstore, hret]
    · rw [hstore, hret]
    · rw [hstore, hret]
    · rw [hstore, hret]
    · rw [hstore, hret]
    · rw [hstore, hret]
    · rw [hstore, hret]; exact hvalid
    · rw [hstore]
    · rw [hstore]
    · rw [hstore, hret]
    · rw [cards_warmActions]; exact held_settledAll kind u
    · rw [← hret]; exact faults_warmActions_of_low kind (hsag.trans hlow)
    · obtain ⟨hfaults, hnext, hover⟩ := faults_warmActions_of_high kind (hsag.trans hhigh)
      rw [hret] at hfaults hnext hover
      refine ⟨by rw [hfaults]; exact List.getLast?_concat .., fun hl => ⟨?_, ?_⟩, fun hl => ⟨?_, ?_⟩, hnext⟩
      · rw [hfaults, if_neg (by omega)]; rfl
      · rw [hover, decide_eq_false (by omega), Bool.or_false]
      · rw [hover, decide_eq_true hl, Bool.or_true]
      · rw [hfaults, if_pos hl, List.length_append, ← length_dropForOverflow (q := s.ret.faults)]
        · exact Nat.le_refl _
        · rintro e; simp [e] at hl
    · have hfree : NumberFree u := by unfold NumberFree; rw [hret]; exact hfree
      obtain ⟨more, hmore, hsum⟩ := settlements_settledAll kind (by rw [hret]; exact hjournal) hfree
      refine ⟨more, by rw [settlements_warmActions, hmore, hret], hsum.trans ?_⟩
      refine congrArg allPositions.filterMap (funext fun p => ?_)
      rw [State.startRecord, hsession, endReason_eq]
    · rw [card_warmActions kind (by rw [hret]; exact hjournal), hcard]
      refine congrArg (Option.map · (s.card id)) (funext fun c => ?_)
      rw [foldl_cardSettled_of_ne _ fun p _ x hx => hother p x ((hsession p).symm.trans hx)]
    · intro p x hx hone
      rw [card_warmActions kind (by rw [hret]; exact hjournal), hcard]
      refine congrArg (Option.map · (s.card x.cardId)) (funext fun c => ?_)
      rw [foldl_cardSettled_of_one ((hsession p).trans hx) rfl
        fun q y hq hy => hone q y hq ((hsession q).symm.trans hy), Session.endedCard]
      split <;> rfl
  refine ⟨fun hv hr => ?_, fun hv hr => ?_, fun f rest hl hs ht hf hok => ?_, fun hv hr => ?_⟩
  · exact ⟨_, exec_powerUp_of_valid hvalid hv hr strap1 strap0, start _ _ rfl rfl rfl⟩
  · exact ⟨_, exec_resetPin_of_valid hvalid hv hr strap1 strap0, start _ _ rfl rfl rfl⟩
  · obtain ⟨hexec, hreply⟩ := exec_restartReply hvalid hl hs ht hf hok strap1 strap0
    refine ⟨⟨_, hexec, start _ _ rfl rfl rfl, ?_⟩, hreply⟩
    obtain ⟨_, _, _, hframe⟩ := warmActions_frame .restartRequest { s.toStart strap1 strap0 with
      link := { s.link with transmit := rest, sending := false }, lastSent := f.wire.map sentByte }
    rw [hframe]
    rfl
  · change execResetPin strap1 strap0 s = _
    rw [execResetPin, if_pos hr, if_neg (by simp [hv])]

end Sys2Proof.Machine
end
